-- ==== Sys2Proof/Word.lean ====
section
/-! DEFINITION. The word types of the machine (00_scope.md R10, R11): values are 8 or 16 bits wide,
and a few encoded fields are 2 or 3 bits wide. -/

namespace Sys2Proof

/-- A byte: the unit of memory, of the ports and of the instruction stream (R120, R127). -/
abbrev Byte := BitVec 8

/-- A machine word: a register, an offset, a segment value or a port number (R50, R54, R56, R120). -/
abbrev Word := BitVec 16

/-- A three-bit field: a register code, a group selector or an interrupt level (R215, R217, R850). -/
abbrev Bits3 := BitVec 3

/-- A two-bit field: the `mod` field of a ModRM byte (R217). -/
abbrev Bits2 := BitVec 2

end Sys2Proof
end

