-- ==== Sys2Proof/Config.lean ====
section
/-! DEFINITION. What an implementation fixes and what the spec leaves free: the parameters of
00_scope.md R8 as one record of plain data (a field of State, so that every statement holds for
every choice of them), and the free values (draws) as constants without a body. -/

namespace Sys2Proof

/-- The undocumented encodings of 30_encoding.md R240, by the spec's own identifiers. -/
inductive UndocId where
  | u1 | u2 | u3 | u4 | u5 | u6 | u7 | u8 | u9 | u10 | u11 | u12 | u13 | u14 | u15 | u16 | u17 | u18
  deriving DecidableEq, Repr

/-- What stands behind a mapped address (20_memory.md R123). -/
inductive RegionKind where
  /-- A read returns the last byte written, or the launch contents. -/
  | ram
  /-- A read returns the launch contents; a write has no effect. -/
  | rom
  /-- A read is answered by the environment; a write is delivered to the environment. -/
  | device
  deriving DecidableEq, Repr

/-- One registered range `[base, base + size)` of the memory map or of the port map (R123, R124). -/
structure Region where
  base : Nat
  size : Nat
  kind : RegionKind
  deriving DecidableEq, Repr

/-- Where an interrupted repeated string instruction resumes (R8 `REP_RESUME`, R601). -/
inductive RepResume where
  | firstPrefix
  | lastPrefix
  deriving DecidableEq, Repr

/-- One value for each general register, used for the launch values of R90 and R91. -/
structure GenRegs where
  ax : Word
  cx : Word
  dx : Word
  bx : Word
  sp : Word
  bp : Word
  si : Word
  di : Word
  deriving DecidableEq, Repr

/-- The OPEN parameters of 00_scope.md R8. `ISR_MODEL` and `PIC_SLAVES` are carried by the interrupt
controllers themselves (`Machine.InService`, `Machine.Slave`). -/
structure Params where
  /-- `MemMap`: the mapped ranges of physical memory; the first range that holds an address owns it. -/
  memMap : List Region
  /-- `PortMap`: the mapped ranges of I/O ports, besides the ports of the interrupt controllers. -/
  portMap : List Region
  /-- `PIC_PORT_BASE`: the command port of the master interrupt controller. -/
  picBase : Word
  /-- `UNDOC_ADMITTED`: the undocumented encodings that have their silicon meaning. -/
  undocAdmitted : List UndocId
  /-- `REP_RESUME`. -/
  repResume : RepResume
  /-- `BUSFAULT_NMI`: whether an access to an unmapped address latches NMI. -/
  busFaultNmi : Bool
  /-- The launch values of the general registers (R90, R91). -/
  launch : GenRegs
  /-- The level of the TEST input in a tick for which the environment lists no inputs. -/
  idleTest : Bool
  deriving DecidableEq, Repr

/-- The parameters with the defaults the spec recommends (R8); where it recommends none, the values of
the log entries 2 and 3. DESIGN CHOICE: RAM over the whole 1 MiB, no port mapped, every launch value 0. -/
def Params.default : Params where
  memMap := [⟨0, 0x100000, .ram⟩]
  portMap := []
  picBase := 0x20#16
  undocAdmitted := []
  repResume := .firstPrefix
  busFaultNmi := true
  launch := ⟨0, 0, 0, 0, 0, 0, 0, 0⟩
  idleTest := true

/-- `QUEUE_DEPTH`: the capacity of the prefetch queue in bytes (R8, R64). -/
def Config.queueDepth : Nat := 6

/-- The free bit of draw number `n` (R405: the value of an undefined flag). -/
opaque Config.freeBit : Nat → Bool

/-- The free byte of draw number `n` (`UnmappedRead` of R8; a device read of R123; the undriven bus byte
of R860 and R862). -/
opaque Config.freeByte : Nat → Byte

end Sys2Proof
end

