-- ==== Sys2Proof/Syntax.lean ====
section
/-! DEFINITION. The syntax of one unit of the instruction stream (30_encoding.md): the register, segment
and effective-address operands, and one constructor for every encoding of the opcode map. Rows of
spec/opcode_table.json that differ only in a register or segment code held in the opcode byte (R210
`reg`, `sreg`), in the coprocessor opcode (R210 `esc`), in the ignored selector of an undocumented
alias (R240 U5, U6, U10) or in `w` and `d` of the meaningless D0-D3 /6 (U17) share one constructor,
with that code as an argument. The constructors without arguments stand last (the compiler bounds the
number of constructors with arguments that may come first). -/

namespace Sys2Proof

/-- The byte registers, in the order of their codes 0 to 7 (R52, R215). -/
inductive Reg8 where
  | al | cl | dl | bl | ah | ch | dh | bh
  deriving DecidableEq, Repr

/-- The word registers, in the order of their codes 0 to 7 (R52, R215). -/
inductive Reg16 where
  | ax | cx | dx | bx | sp | bp | si | di
  deriving DecidableEq, Repr

/-- The segment registers, in the order of their codes 0 to 3 (R54, R216). -/
inductive SReg where
  | es | cs | ss | ds
  deriving DecidableEq, Repr

/-- The base and index combinations, in the order of the `rm` codes 0 to 7 (R220). -/
inductive Base where
  | bxSi | bxDi | bpSi | bpDi | si | di | bp | bx
  deriving DecidableEq, Repr

/-- A memory operand of a ModRM byte (R220, R221). -/
inductive MemOp where
  /-- mod 00: no displacement. `ind .bp` has no encoding (R220: rm 110 is the direct form). -/
  | ind (b : Base)
  /-- mod 00, rm 110: a direct 16-bit offset. -/
  | direct (d : Word)
  /-- mod 01: an 8-bit displacement, sign-extended when the address is computed. -/
  | disp8 (b : Base) (d : Byte)
  /-- mod 10: a 16-bit displacement. -/
  | disp16 (b : Base) (d : Word)
  deriving DecidableEq, Repr

/-- The r/m operand of a ModRM byte: a register of the instruction's width (mod 11, R222) or memory. -/
inductive Rm (ρ : Type) where
  | reg (r : ρ)
  | mem (m : MemOp)
  deriving DecidableEq, Repr

/-- The eight binary ALU operations, in the order of their codes (R407). -/
inductive AluOp where
  | add | or | adc | sbb | and | sub | xor | cmp
  deriving DecidableEq, Repr

/-- The seven documented shifts and rotates (R510). -/
inductive ShiftKind where
  | rol | ror | rcl | rcr | shl | shr | sar
  deriving DecidableEq, Repr

/-- The sixteen conditions, in the order of their codes (R664). -/
inductive Cond where
  | jo | jno | jb | jnb | jz | jnz | jbe | ja | js | jns | jp | jnp | jl | jge | jle | jg
  deriving DecidableEq, Repr

/-- One unit of the instruction stream: a prefix byte, or an opcode with its operands (R200, R235, R240).
A prefix is a unit of its own because the decoder consumes it, records it and decodes the next byte with
the prefix held (R201); no instruction boundary lies between a prefix and its opcode (R204). -/
inductive Instr where
  /-- 00 /r: ADD Eb,Gb (R410). -/
  | addEbGb (dst : Rm Reg8) (src : Reg8)
  /-- 01 /r: ADD Ew,Gw (R410). -/
  | addEwGw (dst : Rm Reg16) (src : Reg16)
  /-- 02 /r: ADD Gb,Eb (R410). -/
  | addGbEb (dst : Reg8) (src : Rm Reg8)
  /-- 03 /r: ADD Gw,Ew (R410). -/
  | addGwEw (dst : Reg16) (src : Rm Reg16)
  /-- 04 ib: ADD AL,Ib (R410). -/
  | addAlIb (imm : Byte)
  /-- 05 iw: ADD AX,Iw (R410). -/
  | addAxIw (imm : Word)
  /-- 80 /0 ib: ADD Eb,Ib (R410). -/
  | addEbIb (dst : Rm Reg8) (imm : Byte)
  /-- 81 /0 iw: ADD Ew,Iw (R410). -/
  | addEwIw (dst : Rm Reg16) (imm : Word)
  /-- 83 /0 ib: ADD Ew,Ibs (R410). -/
  | addEwIbs (dst : Rm Reg16) (imm : Byte)
  /-- 82 /0 ib: ADD Eb,Ib, undocumented (R240 U2). -/
  | addEbIbAlias (dst : Rm Reg8) (imm : Byte)
  /-- 08 /r: OR Eb,Gb (R501). -/
  | orEbGb (dst : Rm Reg8) (src : Reg8)
  /-- 09 /r: OR Ew,Gw (R501). -/
  | orEwGw (dst : Rm Reg16) (src : Reg16)
  /-- 0A /r: OR Gb,Eb (R501). -/
  | orGbEb (dst : Reg8) (src : Rm Reg8)
  /-- 0B /r: OR Gw,Ew (R501). -/
  | orGwEw (dst : Reg16) (src : Rm Reg16)
  /-- 0C ib: OR AL,Ib (R501). -/
  | orAlIb (imm : Byte)
  /-- 0D iw: OR AX,Iw (R501). -/
  | orAxIw (imm : Word)
  /-- 80 /1 ib: OR Eb,Ib (R501). -/
  | orEbIb (dst : Rm Reg8) (imm : Byte)
  /-- 81 /1 iw: OR Ew,Iw (R501). -/
  | orEwIw (dst : Rm Reg16) (imm : Word)
  /-- 83 /1 ib: OR Ew,Ibs, undocumented (R240 U3). -/
  | orEwIbs (dst : Rm Reg16) (imm : Byte)
  /-- 82 /1 ib: OR Eb,Ib, undocumented (R240 U2). -/
  | orEbIbAlias (dst : Rm Reg8) (imm : Byte)
  /-- 10 /r: ADC Eb,Gb (R411). -/
  | adcEbGb (dst : Rm Reg8) (src : Reg8)
  /-- 11 /r: ADC Ew,Gw (R411). -/
  | adcEwGw (dst : Rm Reg16) (src : Reg16)
  /-- 12 /r: ADC Gb,Eb (R411). -/
  | adcGbEb (dst : Reg8) (src : Rm Reg8)
  /-- 13 /r: ADC Gw,Ew (R411). -/
  | adcGwEw (dst : Reg16) (src : Rm Reg16)
  /-- 14 ib: ADC AL,Ib (R411). -/
  | adcAlIb (imm : Byte)
  /-- 15 iw: ADC AX,Iw (R411). -/
  | adcAxIw (imm : Word)
  /-- 80 /2 ib: ADC Eb,Ib (R411). -/
  | adcEbIb (dst : Rm Reg8) (imm : Byte)
  /-- 81 /2 iw: ADC Ew,Iw (R411). -/
  | adcEwIw (dst : Rm Reg16) (imm : Word)
  /-- 83 /2 ib: ADC Ew,Ibs (R411). -/
  | adcEwIbs (dst : Rm Reg16) (imm : Byte)
  /-- 82 /2 ib: ADC Eb,Ib, undocumented (R240 U2). -/
  | adcEbIbAlias (dst : Rm Reg8) (imm : Byte)
  /-- 18 /r: SBB Eb,Gb (R413). -/
  | sbbEbGb (dst : Rm Reg8) (src : Reg8)
  /-- 19 /r: SBB Ew,Gw (R413). -/
  | sbbEwGw (dst : Rm Reg16) (src : Reg16)
  /-- 1A /r: SBB Gb,Eb (R413). -/
  | sbbGbEb (dst : Reg8) (src : Rm Reg8)
  /-- 1B /r: SBB Gw,Ew (R413). -/
  | sbbGwEw (dst : Reg16) (src : Rm Reg16)
  /-- 1C ib: SBB AL,Ib (R413). -/
  | sbbAlIb (imm : Byte)
  /-- 1D iw: SBB AX,Iw (R413). -/
  | sbbAxIw (imm : Word)
  /-- 80 /3 ib: SBB Eb,Ib (R413). -/
  | sbbEbIb (dst : Rm Reg8) (imm : Byte)
  /-- 81 /3 iw: SBB Ew,Iw (R413). -/
  | sbbEwIw (dst : Rm Reg16) (imm : Word)
  /-- 83 /3 ib: SBB Ew,Ibs (R413). -/
  | sbbEwIbs (dst : Rm Reg16) (imm : Byte)
  /-- 82 /3 ib: SBB Eb,Ib, undocumented (R240 U2). -/
  | sbbEbIbAlias (dst : Rm Reg8) (imm : Byte)
  /-- 20 /r: AND Eb,Gb (R500). -/
  | andEbGb (dst : Rm Reg8) (src : Reg8)
  /-- 21 /r: AND Ew,Gw (R500). -/
  | andEwGw (dst : Rm Reg16) (src : Reg16)
  /-- 22 /r: AND Gb,Eb (R500). -/
  | andGbEb (dst : Reg8) (src : Rm Reg8)
  /-- 23 /r: AND Gw,Ew (R500). -/
  | andGwEw (dst : Reg16) (src : Rm Reg16)
  /-- 24 ib: AND AL,Ib (R500). -/
  | andAlIb (imm : Byte)
  /-- 25 iw: AND AX,Iw (R500). -/
  | andAxIw (imm : Word)
  /-- 80 /4 ib: AND Eb,Ib (R500). -/
  | andEbIb (dst : Rm Reg8) (imm : Byte)
  /-- 81 /4 iw: AND Ew,Iw (R500). -/
  | andEwIw (dst : Rm Reg16) (imm : Word)
  /-- 83 /4 ib: AND Ew,Ibs, undocumented (R240 U3). -/
  | andEwIbs (dst : Rm Reg16) (imm : Byte)
  /-- 82 /4 ib: AND Eb,Ib, undocumented (R240 U2). -/
  | andEbIbAlias (dst : Rm Reg8) (imm : Byte)
  /-- 28 /r: SUB Eb,Gb (R412). -/
  | subEbGb (dst : Rm Reg8) (src : Reg8)
  /-- 29 /r: SUB Ew,Gw (R412). -/
  | subEwGw (dst : Rm Reg16) (src : Reg16)
  /-- 2A /r: SUB Gb,Eb (R412). -/
  | subGbEb (dst : Reg8) (src : Rm Reg8)
  /-- 2B /r: SUB Gw,Ew (R412). -/
  | subGwEw (dst : Reg16) (src : Rm Reg16)
  /-- 2C ib: SUB AL,Ib (R412). -/
  | subAlIb (imm : Byte)
  /-- 2D iw: SUB AX,Iw (R412). -/
  | subAxIw (imm : Word)
  /-- 80 /5 ib: SUB Eb,Ib (R412). -/
  | subEbIb (dst : Rm Reg8) (imm : Byte)
  /-- 81 /5 iw: SUB Ew,Iw (R412). -/
  | subEwIw (dst : Rm Reg16) (imm : Word)
  /-- 83 /5 ib: SUB Ew,Ibs (R412). -/
  | subEwIbs (dst : Rm Reg16) (imm : Byte)
  /-- 82 /5 ib: SUB Eb,Ib, undocumented (R240 U2). -/
  | subEbIbAlias (dst : Rm Reg8) (imm : Byte)
  /-- 30 /r: XOR Eb,Gb (R502). -/
  | xorEbGb (dst : Rm Reg8) (src : Reg8)
  /-- 31 /r: XOR Ew,Gw (R502). -/
  | xorEwGw (dst : Rm Reg16) (src : Reg16)
  /-- 32 /r: XOR Gb,Eb (R502). -/
  | xorGbEb (dst : Reg8) (src : Rm Reg8)
  /-- 33 /r: XOR Gw,Ew (R502). -/
  | xorGwEw (dst : Reg16) (src : Rm Reg16)
  /-- 34 ib: XOR AL,Ib (R502). -/
  | xorAlIb (imm : Byte)
  /-- 35 iw: XOR AX,Iw (R502). -/
  | xorAxIw (imm : Word)
  /-- 80 /6 ib: XOR Eb,Ib (R502). -/
  | xorEbIb (dst : Rm Reg8) (imm : Byte)
  /-- 81 /6 iw: XOR Ew,Iw (R502). -/
  | xorEwIw (dst : Rm Reg16) (imm : Word)
  /-- 83 /6 ib: XOR Ew,Ibs, undocumented (R240 U3). -/
  | xorEwIbs (dst : Rm Reg16) (imm : Byte)
  /-- 82 /6 ib: XOR Eb,Ib, undocumented (R240 U2). -/
  | xorEbIbAlias (dst : Rm Reg8) (imm : Byte)
  /-- 38 /r: CMP Eb,Gb (R414). -/
  | cmpEbGb (dst : Rm Reg8) (src : Reg8)
  /-- 39 /r: CMP Ew,Gw (R414). -/
  | cmpEwGw (dst : Rm Reg16) (src : Reg16)
  /-- 3A /r: CMP Gb,Eb (R414). -/
  | cmpGbEb (dst : Reg8) (src : Rm Reg8)
  /-- 3B /r: CMP Gw,Ew (R414). -/
  | cmpGwEw (dst : Reg16) (src : Rm Reg16)
  /-- 3C ib: CMP AL,Ib (R414). -/
  | cmpAlIb (imm : Byte)
  /-- 3D iw: CMP AX,Iw (R414). -/
  | cmpAxIw (imm : Word)
  /-- 80 /7 ib: CMP Eb,Ib (R414). -/
  | cmpEbIb (dst : Rm Reg8) (imm : Byte)
  /-- 81 /7 iw: CMP Ew,Iw (R414). -/
  | cmpEwIw (dst : Rm Reg16) (imm : Word)
  /-- 83 /7 ib: CMP Ew,Ibs (R414). -/
  | cmpEwIbs (dst : Rm Reg16) (imm : Byte)
  /-- 82 /7 ib: CMP Eb,Ib, undocumented (R240 U2). -/
  | cmpEbIbAlias (dst : Rm Reg8) (imm : Byte)
  /-- 06, 0E, 16, 1E: PUSH of ES, CS, SS or DS (R303). -/
  | pushSreg (src : SReg)
  /-- 50+r: PUSH r16 (R303). -/
  | pushR16 (src : Reg16)
  /-- FF /6: PUSH Ew (R303). -/
  | pushEw (src : Rm Reg16)
  /-- FF /7: PUSH Ew, undocumented (R240 U13). -/
  | pushEwAlias (src : Rm Reg16)
  /-- 07, 17, 1F: POP of ES, SS or DS (R304). -/
  | popSreg (dst : SReg)
  /-- 58+r: POP r16 (R304). -/
  | popR16 (dst : Reg16)
  /-- 8F /0: POP Ew (R304). -/
  | popEw (dst : Rm Reg16)
  /-- 8F /1 to /7: POP Ew, undocumented (R240 U10). -/
  | popEwAlias (sel : Bits3) (dst : Rm Reg16)
  /-- 86 /r: XCHG Eb,Gb (R305). -/
  | xchgEbGb (e : Rm Reg8) (g : Reg8)
  /-- 87 /r: XCHG Ew,Gw (R305). -/
  | xchgEwGw (e : Rm Reg16) (g : Reg16)
  /-- 90+r, r from 1 to 7: XCHG AX,r16 (R305). -/
  | xchgAxR16 (r : Reg16)
  /-- 88 /r: MOV Eb,Gb (R300). -/
  | movEbGb (dst : Rm Reg8) (src : Reg8)
  /-- 89 /r: MOV Ew,Gw (R300). -/
  | movEwGw (dst : Rm Reg16) (src : Reg16)
  /-- 8A /r: MOV Gb,Eb (R300). -/
  | movGbEb (dst : Reg8) (src : Rm Reg8)
  /-- 8B /r: MOV Gw,Ew (R300). -/
  | movGwEw (dst : Reg16) (src : Rm Reg16)
  /-- 8C /0 to /3: MOV Ew,Sw (R301). -/
  | movEwSw (dst : Rm Reg16) (src : SReg)
  /-- 8C /4 to /7: MOV Ew,Sw, undocumented (R240 U5). -/
  | movEwSwAlias (dst : Rm Reg16) (src : SReg)
  /-- 8E /0, /2, /3: MOV Sw,Ew (R302). -/
  | movSwEw (dst : SReg) (src : Rm Reg16)
  /-- 8E /4, /6, /7: MOV Sw,Ew, undocumented (R240 U6). -/
  | movSwEwAlias (dst : SReg) (src : Rm Reg16)
  /-- 8E /1 and, with `hi`, /5: MOV CS,Ew, undocumented without a meaning (R240 U7). -/
  | movCsEw (hi : Bool) (mode : Bits2) (rm : Bits3)
  /-- A0 ow: MOV AL,Ob (R300). -/
  | movAlOb (off : Word)
  /-- A1 ow: MOV AX,Ow (R300). -/
  | movAxOw (off : Word)
  /-- A2 ow: MOV Ob,AL (R300). -/
  | movObAl (off : Word)
  /-- A3 ow: MOV Ow,AX (R300). -/
  | movOwAx (off : Word)
  /-- B0+r ib: MOV r8,Ib (R300). -/
  | movR8Ib (dst : Reg8) (imm : Byte)
  /-- B8+r iw: MOV r16,Iw (R300). -/
  | movR16Iw (dst : Reg16) (imm : Word)
  /-- C6 /0 ib: MOV Eb,Ib (R300). -/
  | movEbIb (dst : Rm Reg8) (imm : Byte)
  /-- C7 /0 iw: MOV Ew,Iw (R300). -/
  | movEwIw (dst : Rm Reg16) (imm : Word)
  /-- C6 /1 to /7 ib: MOV Eb,Ib, undocumented (R240 U10). -/
  | movEbIbAlias (sel : Bits3) (dst : Rm Reg8) (imm : Byte)
  /-- C7 /1 to /7 iw: MOV Ew,Iw, undocumented (R240 U10). -/
  | movEwIwAlias (sel : Bits3) (dst : Rm Reg16) (imm : Word)
  /-- 8D /r with mod not 11: LEA Gw,M (R307). -/
  | lea (dst : Reg16) (src : MemOp)
  /-- 8D with mod 11, undocumented without a meaning (R240 U8). -/
  | leaReg (g : Reg16) (e : Reg16)
  /-- C4 /r with mod not 11: LES Gw,Mp (R309). -/
  | les (dst : Reg16) (src : MemOp)
  /-- C4 with mod 11, undocumented without a meaning (R240 U8). -/
  | lesReg (g : Reg16) (e : Reg16)
  /-- C5 /r with mod not 11: LDS Gw,Mp (R308). -/
  | lds (dst : Reg16) (src : MemOp)
  /-- C5 with mod 11, undocumented without a meaning (R240 U8). -/
  | ldsReg (g : Reg16) (e : Reg16)
  /-- E4 ib: IN AL,Ib (R320). -/
  | inAlIb (port : Byte)
  /-- E5 ib: IN AX,Ib (R320). -/
  | inAxIb (port : Byte)
  /-- E6 ib: OUT Ib,AL (R321). -/
  | outIbAl (port : Byte)
  /-- E7 ib: OUT Ib,AX (R321). -/
  | outIbAx (port : Byte)
  /-- 40+r: INC r16 (R415). -/
  | incR16 (dst : Reg16)
  /-- FE /0: INC Eb (R415). -/
  | incEb (dst : Rm Reg8)
  /-- FF /0: INC Ew (R415). -/
  | incEw (dst : Rm Reg16)
  /-- 48+r: DEC r16 (R416). -/
  | decR16 (dst : Reg16)
  /-- FE /1: DEC Eb (R416). -/
  | decEb (dst : Rm Reg8)
  /-- FF /1: DEC Ew (R416). -/
  | decEw (dst : Rm Reg16)
  /-- F6 /2: NOT Eb (R504). -/
  | notEb (dst : Rm Reg8)
  /-- F7 /2: NOT Ew (R504). -/
  | notEw (dst : Rm Reg16)
  /-- F6 /3: NEG Eb (R417). -/
  | negEb (dst : Rm Reg8)
  /-- F7 /3: NEG Ew (R417). -/
  | negEw (dst : Rm Reg16)
  /-- F6 /4: MUL Eb (R418). -/
  | mulEb (src : Rm Reg8)
  /-- F7 /4: MUL Ew (R418). -/
  | mulEw (src : Rm Reg16)
  /-- F6 /5: IMUL Eb (R419). -/
  | imulEb (src : Rm Reg8)
  /-- F7 /5: IMUL Ew (R419). -/
  | imulEw (src : Rm Reg16)
  /-- F6 /6: DIV Eb (R420). -/
  | divEb (src : Rm Reg8)
  /-- F7 /6: DIV Ew (R420). -/
  | divEw (src : Rm Reg16)
  /-- F6 /7: IDIV Eb (R421). -/
  | idivEb (src : Rm Reg8)
  /-- F7 /7: IDIV Ew (R421). -/
  | idivEw (src : Rm Reg16)
  /-- D4 ib with ib not 0A: AAM with another base, undocumented (R240 U16). -/
  | aamBase (base : Byte)
  /-- D5 ib with ib not 0A: AAD with another base, undocumented (R240 U16). -/
  | aadBase (base : Byte)
  /-- 84 /r: TEST Eb,Gb (R503). -/
  | testEbGb (e : Rm Reg8) (g : Reg8)
  /-- 85 /r: TEST Ew,Gw (R503). -/
  | testEwGw (e : Rm Reg16) (g : Reg16)
  /-- A8 ib: TEST AL,Ib (R503). -/
  | testAlIb (imm : Byte)
  /-- A9 iw: TEST AX,Iw (R503). -/
  | testAxIw (imm : Word)
  /-- F6 /0 ib: TEST Eb,Ib (R503). -/
  | testEbIb (e : Rm Reg8) (imm : Byte)
  /-- F7 /0 iw: TEST Ew,Iw (R503). -/
  | testEwIw (e : Rm Reg16) (imm : Word)
  /-- F6 /1 ib: TEST Eb,Ib, undocumented (R240 U11). -/
  | testEbIbAlias (e : Rm Reg8) (imm : Byte)
  /-- F7 /1 iw: TEST Ew,Iw, undocumented (R240 U11). -/
  | testEwIwAlias (e : Rm Reg16) (imm : Word)
  /-- D0 /0: ROL Eb,1 (R511). -/
  | rolEb1 (dst : Rm Reg8)
  /-- D1 /0: ROL Ew,1 (R511). -/
  | rolEw1 (dst : Rm Reg16)
  /-- D2 /0: ROL Eb,CL (R511). -/
  | rolEbCl (dst : Rm Reg8)
  /-- D3 /0: ROL Ew,CL (R511). -/
  | rolEwCl (dst : Rm Reg16)
  /-- D0 /1: ROR Eb,1 (R512). -/
  | rorEb1 (dst : Rm Reg8)
  /-- D1 /1: ROR Ew,1 (R512). -/
  | rorEw1 (dst : Rm Reg16)
  /-- D2 /1: ROR Eb,CL (R512). -/
  | rorEbCl (dst : Rm Reg8)
  /-- D3 /1: ROR Ew,CL (R512). -/
  | rorEwCl (dst : Rm Reg16)
  /-- D0 /2: RCL Eb,1 (R513). -/
  | rclEb1 (dst : Rm Reg8)
  /-- D1 /2: RCL Ew,1 (R513). -/
  | rclEw1 (dst : Rm Reg16)
  /-- D2 /2: RCL Eb,CL (R513). -/
  | rclEbCl (dst : Rm Reg8)
  /-- D3 /2: RCL Ew,CL (R513). -/
  | rclEwCl (dst : Rm Reg16)
  /-- D0 /3: RCR Eb,1 (R514). -/
  | rcrEb1 (dst : Rm Reg8)
  /-- D1 /3: RCR Ew,1 (R514). -/
  | rcrEw1 (dst : Rm Reg16)
  /-- D2 /3: RCR Eb,CL (R514). -/
  | rcrEbCl (dst : Rm Reg8)
  /-- D3 /3: RCR Ew,CL (R514). -/
  | rcrEwCl (dst : Rm Reg16)
  /-- D0 /4: SHL Eb,1 (R515). -/
  | shlEb1 (dst : Rm Reg8)
  /-- D1 /4: SHL Ew,1 (R515). -/
  | shlEw1 (dst : Rm Reg16)
  /-- D2 /4: SHL Eb,CL (R515). -/
  | shlEbCl (dst : Rm Reg8)
  /-- D3 /4: SHL Ew,CL (R515). -/
  | shlEwCl (dst : Rm Reg16)
  /-- D0 /5: SHR Eb,1 (R516). -/
  | shrEb1 (dst : Rm Reg8)
  /-- D1 /5: SHR Ew,1 (R516). -/
  | shrEw1 (dst : Rm Reg16)
  /-- D2 /5: SHR Eb,CL (R516). -/
  | shrEbCl (dst : Rm Reg8)
  /-- D3 /5: SHR Ew,CL (R516). -/
  | shrEwCl (dst : Rm Reg16)
  /-- D0 /7: SAR Eb,1 (R517). -/
  | sarEb1 (dst : Rm Reg8)
  /-- D1 /7: SAR Ew,1 (R517). -/
  | sarEw1 (dst : Rm Reg16)
  /-- D2 /7: SAR Eb,CL (R517). -/
  | sarEbCl (dst : Rm Reg8)
  /-- D3 /7: SAR Ew,CL (R517). -/
  | sarEwCl (dst : Rm Reg16)
  /-- D0 to D3 /6, undocumented without a meaning (R240 U17). -/
  | shiftUndoc6 (byCl : Bool) (wide : Bool) (mode : Bits2) (rm : Bits3)
  /-- 70 cb: JO Jb (R665). -/
  | jo (disp : Byte)
  /-- 71 cb: JNO Jb (R665). -/
  | jno (disp : Byte)
  /-- 72 cb: JB Jb (R665). -/
  | jb (disp : Byte)
  /-- 73 cb: JNB Jb (R665). -/
  | jnb (disp : Byte)
  /-- 74 cb: JZ Jb (R665). -/
  | jz (disp : Byte)
  /-- 75 cb: JNZ Jb (R665). -/
  | jnz (disp : Byte)
  /-- 76 cb: JBE Jb (R665). -/
  | jbe (disp : Byte)
  /-- 77 cb: JA Jb (R665). -/
  | ja (disp : Byte)
  /-- 78 cb: JS Jb (R665). -/
  | js (disp : Byte)
  /-- 79 cb: JNS Jb (R665). -/
  | jns (disp : Byte)
  /-- 7A cb: JP Jb (R665). -/
  | jp (disp : Byte)
  /-- 7B cb: JNP Jb (R665). -/
  | jnp (disp : Byte)
  /-- 7C cb: JL Jb (R665). -/
  | jl (disp : Byte)
  /-- 7D cb: JGE Jb (R665). -/
  | jge (disp : Byte)
  /-- 7E cb: JLE Jb (R665). -/
  | jle (disp : Byte)
  /-- 7F cb: JG Jb (R665). -/
  | jg (disp : Byte)
  /-- 60 cb: JO Jb, undocumented (R240 U1). -/
  | joAlias (disp : Byte)
  /-- 61 cb: JNO Jb, undocumented (R240 U1). -/
  | jnoAlias (disp : Byte)
  /-- 62 cb: JB Jb, undocumented (R240 U1). -/
  | jbAlias (disp : Byte)
  /-- 63 cb: JNB Jb, undocumented (R240 U1). -/
  | jnbAlias (disp : Byte)
  /-- 64 cb: JZ Jb, undocumented (R240 U1). -/
  | jzAlias (disp : Byte)
  /-- 65 cb: JNZ Jb, undocumented (R240 U1). -/
  | jnzAlias (disp : Byte)
  /-- 66 cb: JBE Jb, undocumented (R240 U1). -/
  | jbeAlias (disp : Byte)
  /-- 67 cb: JA Jb, undocumented (R240 U1). -/
  | jaAlias (disp : Byte)
  /-- 68 cb: JS Jb, undocumented (R240 U1). -/
  | jsAlias (disp : Byte)
  /-- 69 cb: JNS Jb, undocumented (R240 U1). -/
  | jnsAlias (disp : Byte)
  /-- 6A cb: JP Jb, undocumented (R240 U1). -/
  | jpAlias (disp : Byte)
  /-- 6B cb: JNP Jb, undocumented (R240 U1). -/
  | jnpAlias (disp : Byte)
  /-- 6C cb: JL Jb, undocumented (R240 U1). -/
  | jlAlias (disp : Byte)
  /-- 6D cb: JGE Jb, undocumented (R240 U1). -/
  | jgeAlias (disp : Byte)
  /-- 6E cb: JLE Jb, undocumented (R240 U1). -/
  | jleAlias (disp : Byte)
  /-- 6F cb: JG Jb, undocumented (R240 U1). -/
  | jgAlias (disp : Byte)
  /-- EB cb: JMP short (R650). -/
  | jmpJb (disp : Byte)
  /-- E9 cw: JMP near (R650). -/
  | jmpJw (disp : Word)
  /-- FF /4: JMP near indirect (R651). -/
  | jmpEw (target : Rm Reg16)
  /-- EA cw cw: JMP far direct (R652). -/
  | jmpAp (off : Word) (sel : Word)
  /-- FF /5 with mod not 11: JMP far indirect (R653). -/
  | jmpMp (ptr : MemOp)
  /-- FF /5 with mod 11, undocumented without a meaning (R240 U9). -/
  | jmpFarReg (e : Reg16)
  /-- E8 cw: CALL near relative (R655). -/
  | callJw (disp : Word)
  /-- FF /2: CALL near indirect (R656). -/
  | callEw (target : Rm Reg16)
  /-- 9A cw cw: CALL far direct (R657). -/
  | callAp (off : Word) (sel : Word)
  /-- FF /3 with mod not 11: CALL far indirect (R658). -/
  | callMp (ptr : MemOp)
  /-- FF /3 with mod 11, undocumented without a meaning (R240 U9). -/
  | callFarReg (e : Reg16)
  /-- C2 iw: RET Iw (R661). -/
  | retIw (release : Word)
  /-- C0 iw: RET Iw, undocumented (R240 U4). -/
  | retIwAlias (release : Word)
  /-- CA iw: RETF Iw (R663). -/
  | retfIw (release : Word)
  /-- C8 iw: RETF Iw, undocumented (R240 U4). -/
  | retfIwAlias (release : Word)
  /-- E0 cb: LOOPNE Jb (R672). -/
  | loopne (disp : Byte)
  /-- E1 cb: LOOPE Jb (R671). -/
  | loope (disp : Byte)
  /-- E2 cb: LOOP Jb (R670). -/
  | loop (disp : Byte)
  /-- E3 cb: JCXZ Jb (R673). -/
  | jcxz (disp : Byte)
  /-- CD ib: INT Ib (R680). -/
  | int (vector : Byte)
  /-- D8 /r to DF /r: ESC (R739). -/
  | esc (op : Bits3) (reg : Bits3) (e : Rm Reg16)
  /-- FE /2, undocumented without a meaning (R240 U18). -/
  | feUndoc2 (mode : Bits2) (rm : Bits3)
  /-- FE /3, undocumented without a meaning (R240 U18). -/
  | feUndoc3 (mode : Bits2) (rm : Bits3)
  /-- FE /4, undocumented without a meaning (R240 U18). -/
  | feUndoc4 (mode : Bits2) (rm : Bits3)
  /-- FE /5, undocumented without a meaning (R240 U18). -/
  | feUndoc5 (mode : Bits2) (rm : Bits3)
  /-- FE /6, undocumented without a meaning (R240 U18). -/
  | feUndoc6 (mode : Bits2) (rm : Bits3)
  /-- FE /7, undocumented without a meaning (R240 U18). -/
  | feUndoc7 (mode : Bits2) (rm : Bits3)
  /-- 26: the segment-override prefix ES: (R741). -/
  | esPrefix
  /-- 2E: the segment-override prefix CS: (R741). -/
  | csPrefix
  /-- 36: the segment-override prefix SS: (R741). -/
  | ssPrefix
  /-- 3E: the segment-override prefix DS: (R741). -/
  | dsPrefix
  /-- F0: the LOCK prefix (R740). -/
  | lock
  /-- F1: the LOCK prefix, undocumented (R240 U12). -/
  | lockAlias
  /-- F2: the REPNE/REPNZ prefix (R607). -/
  | repne
  /-- F3: the REP/REPE/REPZ prefix (R607). -/
  | repe
  /-- 0F: POP CS, undocumented without a meaning (R240 U7). -/
  | popCs
  /-- D7: XLAT (R306). -/
  | xlat
  /-- 9C: PUSHF (R312). -/
  | pushf
  /-- 9D: POPF (R313). -/
  | popf
  /-- 9E: SAHF (R311). -/
  | sahf
  /-- 9F: LAHF (R310). -/
  | lahf
  /-- EC: IN AL,DX (R320). -/
  | inAlDx
  /-- ED: IN AX,DX (R320). -/
  | inAxDx
  /-- EE: OUT DX,AL (R321). -/
  | outDxAl
  /-- EF: OUT DX,AX (R321). -/
  | outDxAx
  /-- 27: DAA (R422). -/
  | daa
  /-- 2F: DAS (R423). -/
  | das
  /-- 37: AAA (R424). -/
  | aaa
  /-- 3F: AAS (R425). -/
  | aas
  /-- D4 0A: AAM (R426). -/
  | aam
  /-- D5 0A: AAD (R427). -/
  | aad
  /-- 98: CBW (R428). -/
  | cbw
  /-- 99: CWD (R429). -/
  | cwd
  /-- A4: MOVSB (R602). -/
  | movsb
  /-- A5: MOVSW (R602). -/
  | movsw
  /-- A6: CMPSB (R603). -/
  | cmpsb
  /-- A7: CMPSW (R603). -/
  | cmpsw
  /-- AA: STOSB (R606). -/
  | stosb
  /-- AB: STOSW (R606). -/
  | stosw
  /-- AC: LODSB (R605). -/
  | lodsb
  /-- AD: LODSW (R605). -/
  | lodsw
  /-- AE: SCASB (R604). -/
  | scasb
  /-- AF: SCASW (R604). -/
  | scasw
  /-- C3: RET (R660). -/
  | ret
  /-- C1: RET, undocumented (R240 U4). -/
  | retAlias
  /-- CB: RETF (R662). -/
  | retf
  /-- C9: RETF, undocumented (R240 U4). -/
  | retfAlias
  /-- CC: INT3 (R681). -/
  | int3
  /-- CE: INTO (R682). -/
  | into
  /-- CF: IRET (R683). -/
  | iret
  /-- F8: CLC (R730). -/
  | clc
  /-- F9: STC (R731). -/
  | stc
  /-- F5: CMC (R732). -/
  | cmc
  /-- FC: CLD (R733). -/
  | cld
  /-- FD: STD (R734). -/
  | std
  /-- FA: CLI (R735). -/
  | cli
  /-- FB: STI (R736). -/
  | sti
  /-- F4: HLT (R737). -/
  | hlt
  /-- 9B: WAIT (R738). -/
  | wait
  /-- 90: NOP (R742). -/
  | nop
  /-- D6: SALC, undocumented (R743, R240 U14). -/
  | salc
  deriving DecidableEq, Repr

end Sys2Proof
end

