-- ==== Sys2Proof/Machine/State.lean ====
section
/-! DEFINITION. The state of the machine as plain data: the register file and flags (10_state.md R50 to
R63), the Execution Engine and its recognition latches (R67 to R69), the prefetch queue and the bus (R64
to R66), the interrupt controllers (60_exceptions.md R850), memory and port storage (20_memory.md R123,
R124), the inputs the environment drives (70_reset_and_hazards.md R985) and the parameters (00_scope.md
R8); the reasons a step can stop; and the state after reset (R90, R853). -/

namespace Sys2Proof.Machine

/-- Byte storage as address and byte pairs: addresses strictly rising, and no entry equal to 0, which is
what an unlisted address reads as (log entry 4). -/
abbrev Mem := List Host.Cell

/-- The nine flags, each one bit (R59); `intf` is IF and `ovf` is OF. -/
structure Flags where
  cf : Bool
  pf : Bool
  af : Bool
  zf : Bool
  sf : Bool
  tf : Bool
  intf : Bool
  df : Bool
  ovf : Bool
  deriving DecidableEq, Repr

/-- The register file: the general registers (R50), the segment registers (R54), the instruction pointer
(R56: the offset of the next byte the Execution Engine takes) and the flags (R59). AX, BX, CX and DX are
stored once, as words; their byte halves are views (R51). -/
structure Cpu where
  ax : Word
  cx : Word
  dx : Word
  bx : Word
  sp : Word
  bp : Word
  si : Word
  di : Word
  es : Word
  cs : Word
  ss : Word
  ds : Word
  ip : Word
  flags : Flags
  deriving DecidableEq, Repr

/-- The repeat prefix in force (R68). -/
inductive Rep where
  | none
  /-- F2 -/
  | repne
  /-- F3 -/
  | repe
  deriving DecidableEq, Repr

/-- The record of a DecodeFault: CS, the offset of the instruction's first byte, the bytes fetched (R803). -/
structure FaultRecord where
  cs : Word
  ip : Word
  bytes : List Byte
  deriving DecidableEq, Repr

/-- The Execution Engine between two units of the instruction stream: the prefix state of R68 and the
recognition state of R69. -/
structure Eu where
  /-- The segment-override prefix in force. -/
  segOvr : Option SReg
  rep : Rep
  /-- 1 after a LOCK prefix. -/
  lock : Bool
  /-- The offset of the instruction's first byte, prefix or opcode. -/
  start : Word
  /-- The bytes of the current instruction taken so far; empty exactly at an instruction boundary. -/
  fetched : List Byte
  /-- 1 for the one boundary after an instruction that inhibits recognition (R813). -/
  shadow : Bool
  /-- TF when the current instruction began (R808). -/
  trapArmed : Bool
  /-- 1 when the instruction just finished entered an interrupt itself (R810). -/
  selfEntered : Bool
  /-- 1 after HLT until an interrupt or reset (R737). -/
  halted : Bool
  /-- 1 while WAIT waits for TEST (R738). -/
  waiting : Bool
  /-- The DecodeFault record, if any; cleared only by reset. -/
  faulted : Option FaultRecord
  deriving DecidableEq, Repr

/-- A piece of work of the Execution Engine that may take bus accesses: a unit of the instruction stream, or an
interrupt entered at a boundary (R810). -/
inductive Work where
  | unit (i : Instr)
  | nmi
  | intr
  | trap
  deriving DecidableEq, Repr

/-- The position of the Execution Engine inside a piece of work (R67). DESIGN CHOICE of its form (log entry 35):
which work, the register file when it began, and the byte that each of its completed bus accesses read or
wrote, the latest first. The next primitive operation and the values computed so far are functions of these. -/
structure Progress where
  work : Work
  cpu : Cpu
  delivered : List Byte
  deriving DecidableEq, Repr

/-- The kinds of bus transaction (R4, R65). -/
inductive BusKind where
  | instructionFetch | readMemory | writeMemory | readPort | writePort | interruptAcknowledge | halt
  deriving DecidableEq, Repr

/-- What a transaction addresses (R65). An interrupt acknowledge is marked as the second of its pair or
not (R860). -/
inductive Target where
  | mem (seg off : Word)
  | port (p : Word)
  | inta (second : Bool)
  | none
  deriving DecidableEq, Repr

/-- The phase of a transaction (R65, R130). -/
inductive Phase where
  | none | address | status | data | clear
  deriving DecidableEq, Repr

/-- Who asked for a transaction (R65). -/
inductive Owner where
  | eu | prefetch
  deriving DecidableEq, Repr

/-- A transaction record (R65). -/
structure Txn where
  kind : BusKind
  target : Target
  /-- The byte to write, or the byte read once sampled. -/
  data : Byte
  phase : Phase
  owner : Owner
  /-- For a prefetch: the queue was flushed while it was in flight (R151). -/
  stale : Bool
  deriving DecidableEq, Repr

/-- The state of the bus (R65). A transaction in its `clear` phase stays here until the next tick, which
finds the bus passive (R130). -/
inductive Bus where
  | passive
  | busy (t : Txn)
  | held
  deriving DecidableEq, Repr

/-- A bus request of the Execution Engine (R66, R137). -/
structure Request where
  kind : BusKind
  target : Target
  data : Byte
  deriving DecidableEq, Repr

/-- The Bus Cycle Engine: the prefetch queue (R64), the bus (R65), and R66's outputs and request. -/
structure Biu where
  queue : List Byte
  bus : Bus
  lockOut : Bool
  hlda : Bool
  euReq : Option Request
  deriving DecidableEq, Repr

/-- A BusFault event: the kind of the access and its physical address or port (R69, R125). -/
structure BusFault where
  kind : BusKind
  address : Nat
  deriving DecidableEq, Repr

/-- The two address spaces that hold devices (R123, R124). -/
inductive Space where
  | memory | io
  deriving DecidableEq, Repr

/-- A byte delivered to a device of the environment (R123: a write to a device is delivered to the
environment). -/
structure Delivery where
  space : Space
  address : Nat
  byte : Byte
  deriving DecidableEq, Repr

/-- The initialization states of an interrupt controller (R850). -/
inductive InitState where
  | awaitingIcw1 | awaitingIcw2 | awaitingIcw3 | awaitingIcw4 | operational
  deriving DecidableEq, Repr

/-- The in-service register; the constructor is the parameter `ISR_MODEL` (R852). -/
inductive InService where
  /-- `single`: none, or the index of the level in service. -/
  | single (level : Option Bits3)
  /-- `bitmask`: bit i is 1 when level i is in service. -/
  | bitmask (levels : Byte)
  deriving DecidableEq, Repr

/-- Which register a command-port read returns (R850). -/
inductive ReadSel where
  | irr | isr
  deriving DecidableEq, Repr

/-- What pulse 1 of an acknowledge sequence resolved, kept for pulse 2 (R860 `sel` and `j`). -/
inductive AckSel where
  | spurious
  | own (j : Bits3)
  | slave (index : Nat)
  deriving DecidableEq, Repr

/-- One interrupt controller (R850). -/
structure Pic where
  init : InitState
  irr : Byte
  imr : Byte
  isr : InService
  ic4 : Bool
  sngl : Bool
  adi : Bool
  ltim : Bool
  a7to5 : Bits3
  icw2 : Byte
  icw3 : Byte
  upm : Bool
  aeoi : Bool
  ms : Bool
  buf : Bool
  sfnm : Bool
  lowest : Bits3
  rotateAeoi : Bool
  smm : Bool
  readSel : ReadSel
  pollPending : Bool
  pulse : Bits2
  sel : AckSel
  deriving DecidableEq, Repr

/-- A slave controller: the master line it is wired to and its command port (the parameter `PIC_SLAVES` of
R8, which no step changes) and its registers. -/
structure Slave where
  line : Bits3
  base : Word
  pic : Pic
  deriving DecidableEq, Repr

/-- The interrupt controllers (R850). -/
structure Pics where
  master : Pic
  slaves : List Slave
  deriving DecidableEq, Repr

/-- Which controller an `IRQ(n)` event is sent to (R985). -/
inductive PicId where
  | master
  | slave (index : Nat)
  deriving DecidableEq, Repr

/-- An `IRQ(n)` event (R855). -/
structure IrqEvent where
  pic : PicId
  line : Bits3
  deriving DecidableEq, Repr

/-- What the HOLD requester does on the bus it holds, so far as the block sees it (R161): a read of memory
changes nothing. -/
inductive DmaAccess where
  | writeMemory (address : Nat) (byte : Byte)
  | readPort (port : Word)
  | writePort (port : Word) (byte : Byte)
  deriving DecidableEq, Repr

/-- What the environment drives in one tick (R138, R985): the levels RESET, NMI, HOLD and TEST, the host's
`Stop()`, the IRQ events, and what the HOLD requester does if it holds the bus (R161). -/
structure TickIn where
  reset : Bool
  stop : Bool
  nmi : Bool
  hold : Bool
  test : Bool
  irq : List IrqEvent
  dma : List DmaAccess
  deriving DecidableEq, Repr

/-- The model's own view of the environment: the inputs of the coming ticks (after the last one the
environment is quiet, log entry 5), the TEST level of the latest tick, and the number of draws taken
(log entry 6). -/
structure Env where
  inputs : List TickIn
  test : Bool
  draws : Nat
  deriving DecidableEq, Repr

/-- The machine. -/
structure State where
  cpu : Cpu
  eu : Eu
  /-- Where the Execution Engine stands inside a piece of work; none at a boundary, while it fetches a unit,
  and while it is halted or waiting (R67). -/
  progress : Option Progress
  biu : Biu
  /-- 1 when an NMI is pending (R69). -/
  nmiLatch : Bool
  /-- The NMI level of the previous tick (R69). -/
  nmiPrev : Bool
  /-- The BusFault events so far, oldest first (R69). -/
  busFaults : List BusFault
  /-- 1 after the host's Stop() (R69, R980). -/
  stopped : Bool
  pics : Pics
  /-- The bytes of the memory map's RAM and ROM (R123). -/
  mem : Mem
  /-- The bytes of the port map's RAM and ROM (R124). -/
  ports : Mem
  /-- The bytes delivered to devices so far, oldest first (the model's record of an output of R985). -/
  deliveries : List Delivery
  env : Env
  params : Params
  deriving DecidableEq, Repr

/-- Why a step stops. Only `step` answers one of the first three, and only when the environment has no
input left that could change the state: they are the ends of a run of R975. -/
inductive Fault where
  /-- R975 (a): a DecodeFault has occurred and no listed input remains. Raised by `step`. Safe: the
  hardware only stays where it is. -/
  | decodeFault (cs ip : Word) (bytes : List Byte)
  /-- R975 (b): the host has called Stop() and no listed input remains. Raised by `step`. Safe. -/
  | stopped
  /-- R975 (c): halted with IF = 0 and no NMI pending, and no listed input remains. Raised by `step`. Safe. -/
  | haltedForGood
  /-- A bus request was not served within the bound that every state allows. No state raises it
  (`Laws.Bus`); it keeps the waiting loops total. Safe. -/
  | busTimeout
  deriving DecidableEq, Repr

/-- Why an instruction has no meaning. The spec asks for no refusal (R17). -/
inductive Refusal where
  /-- Raised by an arm of `exec` for an instruction not modelled yet; no arm raises it now. Safe. -/
  | notModelled (mnemonic : String)
  deriving DecidableEq, Repr

/-- All nine flags 0 (R90). -/
def Flags.clear : Flags := ⟨false, false, false, false, false, false, false, false, false⟩

/-- The register file after reset (R90): CS = 0xFFFF, IP = 0, the other segment registers 0, all flags 0, and
the general registers at their launch values (R91; log entry 3). -/
def Cpu.reset (launch : GenRegs) : Cpu where
  ax := launch.ax
  cx := launch.cx
  dx := launch.dx
  bx := launch.bx
  sp := launch.sp
  bp := launch.bp
  si := launch.si
  di := launch.di
  es := 0
  cs := 0xFFFF
  ss := 0
  ds := 0
  ip := 0
  flags := .clear

/-- The Execution Engine after reset (R90): at an instruction boundary, every latch 0. -/
def Eu.reset : Eu where
  segOvr := none
  rep := .none
  lock := false
  start := 0
  fetched := []
  shadow := false
  trapArmed := false
  selfEntered := false
  halted := false
  waiting := false
  faulted := none

/-- The Bus Cycle Engine after reset (R90): queue empty, bus passive, no request. -/
def Biu.reset : Biu where
  queue := []
  bus := .passive
  lockOut := false
  hlda := false
  euReq := none

/-- The in-service register with nothing in service, in the same `ISR_MODEL` (R852, R853). -/
def InService.none : InService → InService
  | .single _ => .single Option.none
  | .bitmask _ => .bitmask 0

/-- A controller in its reset state (R853), with the given empty in-service register. `sel` is the model's own
field, to which no rule gives a reset value: `spurious` is a DESIGN CHOICE (log entry 11). -/
def Pic.initial (isr : InService) : Pic where
  init := .awaitingIcw1
  irr := 0
  imr := 0
  isr := isr
  ic4 := false
  sngl := false
  adi := false
  ltim := false
  a7to5 := 0
  icw2 := 0
  icw3 := 0
  upm := false
  aeoi := false
  ms := false
  buf := false
  sfnm := false
  lowest := 7
  rotateAeoi := false
  smm := false
  readSel := .irr
  pollPending := false
  pulse := 1
  sel := .spurious

/-- A controller after reset (R853); its `ISR_MODEL` is kept. -/
def Pic.reset (p : Pic) : Pic := Pic.initial p.isr.none

/-- The machine right after reset, with the default parameters: R90 and R853, nothing stored, no listed
input. -/
def State.reset : State where
  cpu := Cpu.reset Params.default.launch
  eu := .reset
  progress := none
  biu := .reset
  nmiLatch := false
  nmiPrev := false
  busFaults := []
  stopped := false
  pics := ⟨.initial (.single none), []⟩
  mem := []
  ports := []
  deliveries := []
  env := ⟨[], true, 0⟩
  params := .default

end Sys2Proof.Machine
end

