-- ==== Sys2Proof/Machine/Memory.lean ====
section
/-! DEFINITION. Byte storage (20_memory.md R123): one read and one write over the canonical list of
address and byte pairs, and the form that list keeps. -/

namespace Sys2Proof.Machine

/-- The byte at an address; an unlisted address reads as 0 (log entry 4, DESIGN CHOICE). -/
def memRead : Mem → Nat → Byte
  | [], _ => 0
  | (k, v) :: rest, a => if k = a then v else memRead rest a

/-- Store a byte, keeping the addresses rising and listing no 0. -/
def memWrite : Mem → Nat → Byte → Mem
  | [], a, b => if b = 0 then [] else [(a, b)]
  | (k, v) :: rest, a, b =>
    if a < k then (if b = 0 then (k, v) :: rest else (a, b) :: (k, v) :: rest)
    else if a = k then (if b = 0 then rest else (a, b) :: rest)
    else (k, v) :: memWrite rest a b

/-- Every listed address is above `lo`, the addresses rise strictly, and no listed byte is 0. -/
def memSorted : Option Nat → Mem → Bool
  | _, [] => true
  | lo, (k, v) :: rest =>
    (match lo with | none => true | some l => decide (l < k)) && (v != 0) && memSorted (some k) rest

/-- The canonical form of storage. -/
def memWf (m : Mem) : Bool := memSorted none m

/-- The kind of the first region that holds an address, if any (R123). -/
def regionKind : List Region → Nat → Option RegionKind
  | [], _ => none
  | r :: rest, a => if r.base ≤ a ∧ a < r.base + r.size then some r.kind else regionKind rest a

end Sys2Proof.Machine
end

