-- ==== Sys2Proof/Machine/Bits.lean ====
section
/-! DEFINITION. Bit fields, byte order and sign extension (00_scope.md R9, R10; 20_memory.md R127), and the
evaluation of a byte to a numeral. -/

namespace Sys2Proof.Machine

/-- The low byte of a word: the byte at the lower address (R127). -/
def loByte (v : Word) : Byte := v.setWidth 8

/-- The high byte of a word: the byte at the next address (R127). -/
def hiByte (v : Word) : Byte := (v >>> 8).setWidth 8

/-- The word of a high and a low byte, `hi:lo` (R9). -/
def joinBytes (hi lo : Byte) : Word := (hi.setWidth 16 <<< 8) ||| lo.setWidth 16

/-- `sext_16` of a byte (R10). -/
def sext16 (b : Byte) : Word := b.signExtend 16

/-- `zext_16` of a byte (R10). -/
def zext16 (b : Byte) : Word := b.setWidth 16

/-- `parity8`: 1 when the low byte has an even number of 1 bits (R10). -/
def parity8 {w : Nat} (v : BitVec w) : Bool :=
  !(v.getLsbD 0 ^^ v.getLsbD 1 ^^ v.getLsbD 2 ^^ v.getLsbD 3 ^^
    v.getLsbD 4 ^^ v.getLsbD 5 ^^ v.getLsbD 6 ^^ v.getLsbD 7)

/-- `phys(seg, off) = (seg * 16 + off) mod 2^20` (R121). -/
def phys (seg off : Word) : Nat := (seg.toNat * 16 + off.toNat) % 0x100000

/-- The three bits of a byte from bit `lo` upward. -/
def bits3 (b : Byte) (lo : Nat) : Bits3 := (b >>> lo).setWidth 3

/-- The byte with only bit `i` set: `1 << i`. -/
def oneHot (i : Bits3) : Byte := 1#8 <<< i.toNat

/-- Go on with a byte as a numeral: `settle b k` is `k b`, and evaluating it evaluates the byte once. -/
def settle {α : Type} (b : Byte) (k : Byte → α) : α :=
  match b.toNat with
  | 0 => k 0
  | n + 1 => k (BitVec.ofNat 8 (n + 1))

end Sys2Proof.Machine
end

