-- ==== Sys2Proof/Machine/Pic.lean ====
section
/-! DEFINITION. The interrupt controller (60_exceptions.md R850 to R872): requests and priority,
initialization and operation commands, reads and polls, and the acknowledge pulses. -/

namespace Sys2Proof.Machine

/-- The eight interrupt levels. -/
def allLevels : List Bits3 := [0, 1, 2, 3, 4, 5, 6, 7]

/-- `rank(j) = (j - lowest - 1) mod 8`; rank 0 is the highest priority (R857). -/
def picRank (p : Pic) (j : Bits3) : Nat := (j - p.lowest - 1).toNat

/-- The levels of a controller from the highest priority to the lowest (R857). -/
def picOrder (p : Pic) : List Bits3 := allLevels.map (fun i => p.lowest + 1 + i)

/-- The in-service condition of eligibility (R852). -/
def picServiceAllows (p : Pic) (j : Bits3) : Bool :=
  match p.isr with
  | .single none => true
  | .single (some k) => decide (picRank p j < picRank p k)
  | .bitmask s =>
    !s.getLsbD j.toNat &&
      (p.smm || allLevels.all fun k => !s.getLsbD k.toNat || decide (picRank p j < picRank p k))

/-- Whether a request on level `j` is eligible, `req` telling which levels request (R852). -/
def picEligible (p : Pic) (req : Bits3 → Bool) (j : Bits3) : Bool :=
  req j && !p.imr.getLsbD j.toNat && picServiceAllows p j

/-- The eligible request of least rank (R857). -/
def picWinner (p : Pic) (req : Bits3 → Bool) : Option Bits3 := (picOrder p).find? (picEligible p req)

/-- The INTR output of a controller (R856). -/
def picIntr (p : Pic) (req : Bits3 → Bool) : Bool :=
  decide (p.init = .operational) && (picWinner p req).isSome

/-- The requests of a controller without cascade lines: its IRR bits (R852). -/
def picOwnRequests (p : Pic) (j : Bits3) : Bool := p.irr.getLsbD j.toNat

/-- The index of the first slave wired to a master line, if any. -/
def slaveOnLine : List Slave → Bits3 → Option Nat
  | [], _ => none
  | sl :: rest, i => if sl.line = i then some 0 else (slaveOnLine rest i).map (· + 1)

/-- The slave behind a master line, when the line is a cascade line (R862). -/
def cascadeSlave (ps : Pics) (i : Bits3) : Option Nat :=
  if !ps.master.sngl && ps.master.icw3.getLsbD i.toNat then slaveOnLine ps.slaves i else none

/-- The requests the master sees: the slave's INTR on a cascade line, the IRR bit on another (R862). -/
def masterRequests (ps : Pics) (i : Bits3) : Bool :=
  match cascadeSlave ps i with
  | some k =>
    match ps.slaves[k]? with
    | some sl => picIntr sl.pic (picOwnRequests sl.pic)
    | none => false
  | none => ps.master.irr.getLsbD i.toNat

/-- The INTR input of the CPU: the master's INTR output (R856). -/
def cpuIntr (ps : Pics) : Bool := picIntr ps.master (masterRequests ps)

/-- `IRQ(n)` at one controller: dropped when masked, else latched (R855). -/
def picIrq (p : Pic) (n : Bits3) : Pic :=
  if p.imr.getLsbD n.toNat then p else { p with irr := p.irr ||| oneHot n }

/-- Apply a function to the slave of an index. -/
def mapSlave (f : Pic → Pic) : List Slave → Nat → List Slave
  | [], _ => []
  | sl :: rest, 0 => { sl with pic := f sl.pic } :: rest
  | sl :: rest, k + 1 => sl :: mapSlave f rest k

/-- An `IRQ(n)` event; an event on a cascade line of the master is ignored (R855, R862). -/
def picsIrq (e : IrqEvent) (ps : Pics) : Pics :=
  match e.pic with
  | .master =>
    match cascadeSlave ps e.line with
    | some _ => ps
    | none => { ps with master := picIrq ps.master e.line }
  | .slave k => { ps with slaves := mapSlave (fun p => picIrq p e.line) ps.slaves k }

/-- Put level `j` in service (R852). -/
def InService.enter (j : Bits3) : InService → InService
  | .single _ => .single (some j)
  | .bitmask s => .bitmask (s ||| oneHot j)

/-- End the service of level `j`: with `single` of whatever is in service (R852, R865). -/
def InService.leave (j : Bits3) : InService → InService
  | .single _ => .single Option.none
  | .bitmask s => .bitmask (s &&& ~~~ oneHot j)

/-- The level a non-specific EOI ends, if any: the one in service, or the in-service level of highest
priority (R852, R865). -/
def picHighestInService (p : Pic) : Option Bits3 :=
  match p.isr with
  | .single level => level
  | .bitmask s => (picOrder p).find? fun k => s.getLsbD k.toNat

/-- Accept the request of level `j`: clear it from IRR and put it in service (R860). -/
def picAccept (p : Pic) (j : Bits3) : Pic :=
  { p with irr := p.irr &&& ~~~ oneHot j, isr := p.isr.enter j }

/-- ICW1 (R858). -/
def picIcw1 (b : Byte) (p : Pic) : Pic :=
  let q := { p with
    ic4 := b.getLsbD 0, sngl := b.getLsbD 1, adi := b.getLsbD 2, ltim := b.getLsbD 3
    a7to5 := bits3 b 5, irr := 0, imr := 0, isr := p.isr.none, lowest := 7, rotateAeoi := false
    smm := false, readSel := .irr, pollPending := false, pulse := 1, init := .awaitingIcw2 }
  if b.getLsbD 0 then q
  else { q with upm := false, aeoi := false, ms := false, buf := false, sfnm := false }

/-- The non-specific EOI (R865 command 001). -/
def picEoi (p : Pic) : Pic :=
  match picHighestInService p with
  | some k => { p with isr := p.isr.leave k }
  | none => p

/-- OCW2 (R865): the command in bits 7 to 5, the level in bits 2 to 0. -/
def picOcw2 (b : Byte) (p : Pic) : Pic :=
  let level := bits3 b 0
  match b.getLsbD 7, b.getLsbD 6, b.getLsbD 5 with
  | false, false, true => picEoi p
  | false, true, true => { p with isr := p.isr.leave level }
  | true, false, true =>
    match picHighestInService p with
    | some k => { picEoi p with lowest := k }
    | none => picEoi p
  | true, true, true => { p with isr := p.isr.leave level, lowest := level }
  | true, true, false => { p with lowest := level }
  | true, false, false => { p with rotateAeoi := true }
  | false, false, false => { p with rotateAeoi := false }
  | false, true, false => p

/-- OCW3 (R868). -/
def picOcw3 (b : Byte) (p : Pic) : Pic :=
  { p with
    smm := if b.getLsbD 6 then b.getLsbD 5 else p.smm
    pollPending := if b.getLsbD 2 then true else p.pollPending
    readSel := if b.getLsbD 1 then (if b.getLsbD 0 then .isr else .irr) else p.readSel }

/-- A write to the command port (R851, R858, R865, R868, R872). -/
def picWriteCommand (b : Byte) (p : Pic) : Pic :=
  if b.getLsbD 4 then picIcw1 b p
  else if p.init = .operational then (if b.getLsbD 3 then picOcw3 b p else picOcw2 b p)
  else p

/-- A write to the data port (R859, R864, R872). -/
def picWriteData (b : Byte) (p : Pic) : Pic :=
  match p.init with
  | .awaitingIcw1 => p
  | .awaitingIcw2 =>
    { p with
      icw2 := b
      init := if !p.sngl then .awaitingIcw3 else if p.ic4 then .awaitingIcw4 else .operational }
  | .awaitingIcw3 => { p with icw3 := b, init := if p.ic4 then .awaitingIcw4 else .operational }
  | .awaitingIcw4 =>
    { p with
      upm := b.getLsbD 0, aeoi := b.getLsbD 1, ms := b.getLsbD 2, buf := b.getLsbD 3
      sfnm := b.getLsbD 4, init := .operational }
  | .operational => { p with imr := b }

/-- The image of the in-service register (R869). -/
def InService.image : InService → Byte
  | .single Option.none => 0
  | .single (some k) => oneHot k
  | .bitmask s => s

/-- A poll (R870): the winner is accepted as by pulse 1, except on a cascade line, which is only named. -/
def picPoll (p : Pic) (req : Bits3 → Bool) (isCascade : Bits3 → Bool) : Pic × Byte :=
  let q := { p with pollPending := false }
  match picWinner p req with
  | none => (q, 0)
  | some j => (if isCascade j then q else picAccept q j, 0x80#8 ||| j.setWidth 8)

/-- A read of the command port (R869, R870). -/
def picReadCommand (p : Pic) (req : Bits3 → Bool) (isCascade : Bits3 → Bool) : Pic × Byte :=
  if p.pollPending then picPoll p req isCascade
  else match p.readSel with
    | .irr => (p, p.irr)
    | .isr => (p, p.isr.image)

/-- The vector byte a controller drives at pulse 2 for level `j`: the 8086-mode vector (R860), or the low
address byte of 8080 mode (R861). -/
def picVector (p : Pic) (j : Bits3) : Byte :=
  if p.upm then (p.icw2 &&& 0xF8#8) ||| j.setWidth 8
  else if p.adi then (p.a7to5.setWidth 8 <<< 5) ||| (j.setWidth 8 <<< 2)
  else ((p.a7to5 &&& 6#3).setWidth 8 <<< 5) ||| (j.setWidth 8 <<< 3)

/-- AutoEOI(j) (R863). -/
def picAutoEoi (p : Pic) (j : Bits3) : Pic :=
  if p.aeoi then
    { p with isr := p.isr.leave j, lowest := if p.rotateAeoi then j else p.lowest }
  else p

/-- Pulse 1 at the controller that resolves locally (R860). -/
def picPulse1 (p : Pic) (req : Bits3 → Bool) : Pic :=
  match picWinner p req with
  | some j => { picAccept p j with sel := .own j, pulse := 2 }
  | none => { p with sel := .spurious, pulse := 2 }

/-- The pulse number expected after pulse 2: the first of a new sequence, or the third that 8080 mode
still expects (R850, R861). -/
def picAfterPulse2 (p : Pic) : Bits2 := if p.upm then 1 else 3

/-- Pulse 2 at the controller that drives the vector (R860, R861, R823). -/
def picPulse2 (p : Pic) : Pic × Byte :=
  let q := { p with pulse := picAfterPulse2 p }
  match p.sel with
  | .own j => (picAutoEoi q j, picVector p j)
  | .spurious => (q, (p.icw2 &&& 0xF8#8) ||| 7#8)
  | .slave _ => (q, (p.icw2 &&& 0xF8#8) ||| 7#8)

/-- The first pulse at the master (R860, R862). The byte is what is driven; `none` means no value is given. -/
def picsPulse1 (ps : Pics) : Pics × Option Byte :=
  let driven := if ps.master.upm then none else some 0xCD#8
  match picWinner ps.master (masterRequests ps) with
  | none => ({ ps with master := { ps.master with sel := .spurious, pulse := 2 } }, driven)
  | some j =>
    match cascadeSlave ps j with
    | none => ({ ps with master := { picAccept ps.master j with sel := .own j, pulse := 2 } }, driven)
    | some k =>
      ({ master := { ps.master with sel := .slave k, pulse := 2 }
         slaves := mapSlave (fun p => picPulse1 p (picOwnRequests p)) ps.slaves k }, driven)

/-- The second pulse at the master (R860 to R863). A slave whose identifier is not its line drives
nothing (R862). -/
def picsPulse2 (ps : Pics) : Pics × Option Byte :=
  match ps.master.sel with
  | .slave k =>
    let ps' : Pics :=
      { master := { ps.master with pulse := picAfterPulse2 ps.master }
        slaves := mapSlave (fun p => (picPulse2 p).1) ps.slaves k }
    match ps.slaves[k]? with
    | some sl => (ps', if bits3 sl.pic.icw3 0 = sl.line then some (picPulse2 sl.pic).2 else none)
    | none => (ps', none)
  | _ => ({ ps with master := (picPulse2 ps.master).1 }, some (picPulse2 ps.master).2)

/-- One INTA pulse, the second of its pair or not (R860). -/
def picsPulse (second : Bool) (ps : Pics) : Pics × Option Byte :=
  if second then picsPulse2 ps else picsPulse1 ps

/-- The index of the slave that answers a port and whether it is its data port, if any (R854). -/
def slavePort : List Slave → Word → Option (Nat × Bool)
  | [], _ => none
  | sl :: rest, p =>
    if p = sl.base then some (0, false)
    else if p = sl.base + 1 then some (0, true)
    else (slavePort rest p).map fun x => (x.1 + 1, x.2)

/-- The controller that answers a port and whether it is its data port, if any (R854). -/
def picPort (base : Word) (ps : Pics) (p : Word) : Option (PicId × Bool) :=
  if p = base then some (.master, false)
  else if p = base + 1 then some (.master, true)
  else (slavePort ps.slaves p).map fun x => (.slave x.1, x.2)

/-- A write to a controller's port (R854). -/
def picsWrite (id : PicId) (dataPort : Bool) (b : Byte) (ps : Pics) : Pics :=
  let f := if dataPort then picWriteData b else picWriteCommand b
  match id with
  | .master => { ps with master := f ps.master }
  | .slave k => { ps with slaves := mapSlave f ps.slaves k }

/-- A read of a controller's port (R854, R869). -/
def picsRead (id : PicId) (dataPort : Bool) (ps : Pics) : Pics × Byte :=
  match id with
  | .master =>
    if dataPort then (ps, ps.master.imr)
    else
      let r := picReadCommand ps.master (masterRequests ps) fun i => (cascadeSlave ps i).isSome
      ({ ps with master := r.1 }, r.2)
  | .slave k =>
    match ps.slaves[k]? with
    | none => (ps, 0)
    | some sl =>
      if dataPort then (ps, sl.pic.imr)
      else
        let r := picReadCommand sl.pic (picOwnRequests sl.pic) fun _ => false
        ({ ps with slaves := mapSlave (fun _ => r.1) ps.slaves k }, r.2)

end Sys2Proof.Machine
end

