-- ==== Sys2Proof/Machine/Bus.lean ====
section
/-! DEFINITION. The Bus Cycle Engine (20_memory.md R120 to R172) and RESET (70_reset_and_hazards.md R950):
what a transaction does in its data phase, arbitration, the prefetcher, the bus hold, and one tick of
the core (R138) up to the point where the Execution Engine goes on. -/

namespace Sys2Proof.Machine

/-- RESET at a tick whose NMI level is `nmi` (R950, R951, R90, R853): the whole block takes its reset
state; memory, ports and what was delivered to devices stay; the NMI level becomes `nmiPrev`; the
transaction in flight is abandoned. -/
def resetBlock (nmi : Bool) (s : State) : State :=
  { s with
    cpu := Cpu.reset s.params.launch
    eu := .reset
    progress := none
    biu := .reset
    nmiLatch := false
    nmiPrev := nmi
    busFaults := []
    stopped := false
    pics :=
      { master := s.pics.master.reset
        slaves := s.pics.slaves.map fun sl => { sl with pic := sl.pic.reset } } }

/-- A free byte (a draw), and the count of draws taken. -/
def drawByte (s : State) : Byte × State :=
  (Config.freeByte s.env.draws, { s with env := { s.env with draws := s.env.draws + 1 } })

/-- Record a BusFault and, under `BUSFAULT_NMI`, latch an NMI (R125, R804). -/
def busFault (kind : BusKind) (a : Nat) (s : State) : State :=
  { s with
    busFaults := s.busFaults ++ [⟨kind, a⟩]
    nmiLatch := if s.params.busFaultNmi then true else s.nmiLatch }

/-- The byte a memory read or a fetch samples at a physical address (R123, R125, R131). -/
def sampleMemory (kind : BusKind) (a : Nat) (s : State) : Byte × State :=
  match regionKind s.params.memMap a with
  | some .ram => (memRead s.mem a, s)
  | some .rom => (memRead s.mem a, s)
  | some .device => drawByte s
  | none => drawByte (busFault kind a s)

/-- A memory write at a physical address (R123, R125, R131). -/
def depositMemory (kind : BusKind) (a : Nat) (b : Byte) (s : State) : State :=
  match regionKind s.params.memMap a with
  | some .ram => { s with mem := memWrite s.mem a b }
  | some .rom => s
  | some .device => { s with deliveries := s.deliveries ++ [⟨.memory, a, b⟩] }
  | none => busFault kind a s

/-- The byte a port read samples (R124, R854). -/
def samplePort (p : Word) (s : State) : Byte × State :=
  match picPort s.params.picBase s.pics p with
  | some (id, dataPort) =>
    ((picsRead id dataPort s.pics).2, { s with pics := (picsRead id dataPort s.pics).1 })
  | none =>
    match regionKind s.params.portMap p.toNat with
    | some .ram => (memRead s.ports p.toNat, s)
    | some .rom => (memRead s.ports p.toNat, s)
    | some .device => drawByte s
    | none => drawByte (busFault .readPort p.toNat s)

/-- A port write (R124, R854). -/
def depositPort (p : Word) (b : Byte) (s : State) : State :=
  match picPort s.params.picBase s.pics p with
  | some (id, dataPort) => { s with pics := picsWrite id dataPort b s.pics }
  | none =>
    match regionKind s.params.portMap p.toNat with
    | some .ram => { s with ports := memWrite s.ports p.toNat b }
    | some .rom => s
    | some .device => { s with deliveries := s.deliveries ++ [⟨.io, p.toNat, b⟩] }
    | none => busFault .writePort p.toNat s

/-- One INTA pulse; where the controllers drive no value the spec gives, the byte is a draw (R860, R862). -/
def sampleInta (second : Bool) (s : State) : Byte × State :=
  let s' := { s with pics := (picsPulse second s.pics).1 }
  match (picsPulse second s.pics).2 with
  | some b => (b, s')
  | none => drawByte s'

/-- The data phase of a transaction (R131): the byte the record holds afterwards, and the state. -/
def dataPhase (t : Txn) (s : State) : Byte × State :=
  match t.kind, t.target with
  | .instructionFetch, .mem seg off => sampleMemory .instructionFetch (phys seg off) s
  | .readMemory, .mem seg off => sampleMemory .readMemory (phys seg off) s
  | .writeMemory, .mem seg off => (t.data, depositMemory .writeMemory (phys seg off) t.data s)
  | .readPort, .port p => samplePort p s
  | .writePort, .port p => (t.data, depositPort p t.data s)
  | .interruptAcknowledge, .inta second => sampleInta second s
  | _, _ => (t.data, s)

/-- The position inside a piece of work moves past a bus access that delivered `b` (R67). -/
def Progress.note (b : Byte) (p : Progress) : Progress := { p with delivered := b :: p.delivered }

/-- The completion of a transaction at its `clear` phase: a fetched byte that is not stale joins the queue
(R136); an Execution Engine request is no longer pending (R137), and the work that asked for it, if any, has
moved past it (R67). -/
def finishTxn (t : Txn) (s : State) : State :=
  match t.owner with
  | .prefetch => if t.stale then s else { s with biu := { s.biu with queue := s.biu.queue ++ [t.data] } }
  | .eu => { s with biu := { s.biu with euReq := none }, progress := s.progress.map (Progress.note t.data) }

/-- Set the state of the bus. -/
def setBus (b : Bus) (s : State) : State := { s with biu := { s.biu with bus := b } }

/-- The offset in CS of the next byte to prefetch, `FIP = (IP + len(Q)) mod 2^16` (R58). -/
def fetchOffset (s : State) : Word := s.cpu.ip + BitVec.ofNat 16 s.biu.queue.length

/-- The prefetch condition of R135 at a passive bus with no request and no HOLD to grant. -/
def mayPrefetch (s : State) : Bool :=
  decide (s.biu.queue.length < Config.queueDepth) && !s.eu.halted && s.eu.faulted.isNone && !s.stopped

/-- A passive bus: grant HOLD, start the Execution Engine's request, start a fetch, or stay passive, in
this order (R134, R138). -/
def arbitrate (hold : Bool) (s : State) : State :=
  if hold && !s.biu.lockOut then { s with biu := { s.biu with bus := .held, hlda := true } }
  else match s.biu.euReq with
    | some r => setBus (.busy ⟨r.kind, r.target, r.data, .address, .eu, false⟩) s
    | none =>
      if mayPrefetch s then
        setBus (.busy ⟨.instructionFetch, .mem s.cpu.cs (fetchOffset s), 0, .address, .prefetch, false⟩) s
      else setBus .passive s

/-- One phase step of the Bus Cycle Engine (R130, R138). -/
def busStep (hold : Bool) (s : State) : State :=
  match s.biu.bus with
  | .passive => arbitrate hold s
  | .held =>
    if hold then s else { s with biu := { s.biu with bus := .passive, hlda := false } }
  | .busy t =>
    match t.phase with
    | .none => setBus (.busy { t with phase := .address }) s
    | .address => setBus (.busy { t with phase := .status }) s
    | .status =>
      setBus (.busy { t with phase := .data, data := (dataPhase t s).1 }) (dataPhase t s).2
    | .data => finishTxn t (setBus (.busy { t with phase := .clear }) s)
    | .clear => arbitrate hold s

/-- One access of the HOLD requester in a tick in which it holds the bus (R161; log entry 14): a mapped
address or port takes it as it takes the core's; an unmapped one changes nothing. -/
def dmaAccess (x : DmaAccess) (s : State) : State :=
  match x with
  | .writeMemory a b =>
    match regionKind s.params.memMap a with
    | none => s
    | some _ => depositMemory .writeMemory a b s
  | .readPort p =>
    match picPort s.params.picBase s.pics p with
    | some (id, dataPort) => { s with pics := (picsRead id dataPort s.pics).1 }
    | none => s
  | .writePort p b =>
    match picPort s.params.picBase s.pics p, regionKind s.params.portMap p.toNat with
    | none, none => s
    | _, _ => depositPort p b s

/-- The accesses of the HOLD requester, in the order listed (R161). -/
def dmaAccesses : List DmaAccess → State → State
  | [], s => s
  | x :: rest, s => dmaAccesses rest (dmaAccess x s)

/-- What the HOLD requester does at the end of a tick: it has the bus exactly while the bus is held, whether
or not the CPU takes a step (R161). -/
def holdAccesses (l : List DmaAccess) (s : State) : State :=
  match s.biu.bus with
  | .held => dmaAccesses l s
  | _ => s

/-- NMI edge detection (R805, R138). -/
def nmiEdge (level : Bool) (s : State) : State :=
  { s with nmiLatch := s.nmiLatch || (level && !s.nmiPrev), nmiPrev := level }

/-- The IRQ events of a tick, in the order listed (R855). -/
def irqEvents : List IrqEvent → State → State
  | [], s => s
  | e :: rest, s => irqEvents rest { s with pics := picsIrq e s.pics }

/-- The CPU takes no step: the host has stopped it, or it has met a DecodeFault (R138, R803, R980). -/
def frozen (s : State) : Bool := s.stopped || s.eu.faulted.isSome

/-- One tick with the inputs `i`, up to the Execution Engine's progress (R138). -/
def tick (i : TickIn) (s : State) : State :=
  let s := { s with env := { s.env with test := i.test } }
  if i.reset then resetBlock i.nmi s
  else
    let s := irqEvents i.irq s
    let s := if i.stop then { s with stopped := true } else s
    holdAccesses i.dma (if frozen s then s else busStep i.hold (nmiEdge i.nmi s))

/-- The inputs of a tick for which the environment lists none (log entry 5). -/
def idleInput (s : State) : TickIn := ⟨false, false, false, false, s.params.idleTest, [], []⟩

/-- The inputs of the next tick. -/
def nextInput (s : State) : TickIn := s.env.inputs.headD (idleInput s)

/-- The next tick's inputs are used up. -/
def dropInput (s : State) : State := { s with env := { s.env with inputs := s.env.inputs.tail } }

/-- The next tick. -/
def nextTick (s : State) : State := tick (nextInput s) (dropInput s)

/-- The byte delivered to the Execution Engine in the tick just made, if its request completed (R137). -/
def deliveredByte (s : State) : Option Byte :=
  match s.biu.bus with
  | .busy t => if t.phase = .clear ∧ t.owner = .eu then some t.data else none
  | _ => none

/-- The bus status published in a `status` phase, S2 S1 S0, and 111 while the bus is passive (R132); an output
no rule reads. DESIGN CHOICE (log entry 34): 111 as well in the other phases of a transaction and while the
bus is held, for which R132 gives no value. -/
def busStatus (s : State) : Bits3 :=
  match s.biu.bus with
  | .busy t =>
    if t.phase = .status then
      match t.kind with
      | .interruptAcknowledge => 0b000
      | .readPort => 0b001
      | .writePort => 0b010
      | .halt => 0b011
      | .instructionFetch => 0b100
      | .readMemory => 0b101
      | .writeMemory => 0b110
    else 0b111
  | _ => 0b111

/-- The number a target puts on the address lines: a physical address or a port (R131). -/
def targetAddress : Target → Option Nat
  | .mem seg off => some (phys seg off)
  | .port p => some p.toNat
  | .inta _ => none
  | .none => none

/-- The address published in an `address` phase (R131); an output no rule reads. -/
def publishedAddress (s : State) : Option Nat :=
  match s.biu.bus with
  | .busy t => if t.phase = .address then targetAddress t.target else none
  | _ => none

/-- The byte a write publishes in its `address` phase (R131); an output no rule reads. -/
def publishedByte (s : State) : Option Byte :=
  match s.biu.bus with
  | .busy t =>
    if t.phase = .address ∧ (t.kind = .writeMemory ∨ t.kind = .writePort) then some t.data else none
  | _ => none

end Sys2Proof.Machine
end

