-- ==== Sys2Proof/Machine/Ops.lean ====
section
/-! DEFINITION. The primitive operations of the Execution Engine (00_scope.md R13, R14): bus accesses that
block until their transaction is done, memory, port and stack accesses, jumps, interrupt entry
(60_exceptions.md R820) and return (R830), the acknowledge sequence (R822), DecodeFault (R803), draws
(R405), and how a meaning becomes an outcome. -/

namespace Sys2Proof.Machine

/-- Why an instruction is abandoned in its middle. -/
inductive Abort where
  /-- RESET (R950). -/
  | reset
  /-- The CPU takes no further step: Stop() (R980), or a DecodeFault already recorded (R803). -/
  | frozen
  /-- The bound of a waiting loop was reached; no state does so. -/
  | timeout
  deriving DecidableEq, Repr

/-- A piece of the Execution Engine's work: it changes the state and gives a result, or it is abandoned in
the state reached. -/
abbrev EU (α : Type) := EStateM Abort State α

/-- How an instruction ends a step. -/
abbrev Result := Host.Outcome State Fault Refusal

/-- Read a value from the state. -/
def readS {α : Type} (f : State → α) : EU α := fun s => .ok (f s) s

/-- Change the state. -/
def modifyS (f : State → State) : EU Unit := fun s => .ok () (f s)

/-- Change the register file. -/
def modifyCpu (f : Cpu → Cpu) : EU Unit := modifyS fun s => { s with cpu := f s.cpu }

/-- Change the flags. -/
def modifyFlags (f : Flags → Flags) : EU Unit := modifyCpu fun c => { c with flags := f c.flags }

/-- Change the Execution Engine's own state. -/
def modifyEu (f : Eu → Eu) : EU Unit := modifyS fun s => { s with eu := f s.eu }

/-- A free bit: the value of an undefined flag (R405). -/
def drawBit : EU Bool := fun s =>
  .ok (Config.freeBit s.env.draws) { s with env := { s.env with draws := s.env.draws + 1 } }

/-- Let one tick pass (R138); RESET, or a CPU that takes no step, abandons the instruction. -/
def passTick : EU Unit := fun s =>
  if (nextInput s).reset then .error .reset (nextTick s)
  else if frozen (nextTick s) then .error .frozen (nextTick s)
  else .ok () (nextTick s)

/-- How many ticks a waiting loop may take: each listed input can delay it, and then the transaction in
flight and the awaited one need at most nine ticks. -/
def tickBound (s : State) : Nat := 6 * s.env.inputs.length + 16

/-- Let ticks pass until the Execution Engine's request completes (R137). -/
def awaitBus : Nat → EU Byte
  | 0 => throw .timeout
  | n + 1 => do
    passTick
    match ← readS deliveredByte with
    | some b => pure b
    | none => awaitBus n

/-- A piece of work begins with the registers as they are (R67). -/
def beginWork (w : Work) (s : State) : State := { s with progress := some ⟨w, s.cpu, []⟩ }

/-- One bus access of the Execution Engine: post the request and block until it completes (R137). -/
def busAccess (r : Request) : EU Byte := do
  modifyS fun s => { s with biu := { s.biu with euReq := some r } }
  awaitBus (← readS tickBound)

/-- `MemRead(seg:off, 1)` (R13). -/
def memRead8 (seg off : Word) : EU Byte := busAccess ⟨.readMemory, .mem seg off, 0⟩

/-- `MemWrite(seg:off, 1, b)` (R13). -/
def memWrite8 (seg off : Word) (b : Byte) : EU Unit := do
  let _ ← busAccess ⟨.writeMemory, .mem seg off, b⟩
  pure ()

/-- `MemRead(seg:off, 2)`: low byte first, the second at `(off + 1) mod 2^16` (R13, R122). -/
def memRead16 (seg off : Word) : EU Word := do
  let lo ← memRead8 seg off
  let hi ← memRead8 seg (off + 1)
  pure (joinBytes hi lo)

/-- `MemWrite(seg:off, 2, v)`: low byte first (R13, R122). -/
def memWrite16 (seg off : Word) (v : Word) : EU Unit := do
  memWrite8 seg off (loByte v)
  memWrite8 seg (off + 1) (hiByte v)

/-- `PortRead(p, 1)` (R13). -/
def portRead8 (p : Word) : EU Byte := busAccess ⟨.readPort, .port p, 0⟩

/-- `PortWrite(p, 1, b)` (R13). -/
def portWrite8 (p : Word) (b : Byte) : EU Unit := do
  let _ ← busAccess ⟨.writePort, .port p, b⟩
  pure ()

/-- `PortRead(p, 2)`: ports p, then `(p + 1) mod 2^16`, low byte first (R13). -/
def portRead16 (p : Word) : EU Word := do
  let lo ← portRead8 p
  let hi ← portRead8 (p + 1)
  pure (joinBytes hi lo)

/-- `PortWrite(p, 2, v)` (R13). -/
def portWrite16 (p : Word) (v : Word) : EU Unit := do
  portWrite8 p (loByte v)
  portWrite8 (p + 1) (hiByte v)

/-- A far pointer in memory: the offset word, then the segment word at `(off + 2) mod 2^16` (R232). -/
def readFarPointer (seg off : Word) : EU (Word × Word) := do
  let o ← memRead16 seg off
  let sel ← memRead16 seg (off + 2)
  pure (o, sel)

/-- `Push(v)` (R14). -/
def push (v : Word) : EU Unit := do
  modifyCpu fun c => { c with sp := c.sp - 2 }
  let c ← readS State.cpu
  memWrite16 c.ss c.sp v

/-- `Pop()` (R14). -/
def pop : EU Word := do
  let c ← readS State.cpu
  let v ← memRead16 c.ss c.sp
  modifyCpu fun c => { c with sp := c.sp + 2 }
  pure v

/-- A fetch in flight at a queue flush is marked stale (R151); one in its `clear` phase has completed. -/
def staleBus : Bus → Bus
  | .busy t =>
    if t.owner = .prefetch ∧ t.phase ≠ .clear then .busy { t with stale := true } else .busy t
  | .passive => .passive
  | .held => .held

/-- Empty the prefetch queue (R150, R151). -/
def flushQueue (b : Biu) : Biu := { b with queue := [], bus := staleBus b.bus }

/-- `Jump(off)` (R14). -/
def jump (off : Word) : EU Unit := modifyS fun s =>
  { s with cpu := { s.cpu with ip := off }, biu := flushQueue s.biu }

/-- `JumpFar(seg, off)` (R14). -/
def jumpFar (seg off : Word) : EU Unit := modifyS fun s =>
  { s with cpu := { s.cpu with cs := seg, ip := off }, biu := flushQueue s.biu }

/-- A relative jump: the target is `(IP_next + disp) mod 2^16` (R231). -/
def jumpRelative (disp : Word) : EU Unit := do
  let c ← readS State.cpu
  jump (c.ip + disp)

/-- `FlagsWord()` (R62). -/
def flagsWord (f : Flags) : Word :=
  0xF002#16 ||| ((BitVec.ofBool f.ovf).setWidth 16 <<< 11) ||| ((BitVec.ofBool f.df).setWidth 16 <<< 10) |||
    ((BitVec.ofBool f.intf).setWidth 16 <<< 9) ||| ((BitVec.ofBool f.tf).setWidth 16 <<< 8) |||
    ((BitVec.ofBool f.sf).setWidth 16 <<< 7) ||| ((BitVec.ofBool f.zf).setWidth 16 <<< 6) |||
    ((BitVec.ofBool f.af).setWidth 16 <<< 4) ||| ((BitVec.ofBool f.pf).setWidth 16 <<< 2) |||
    (BitVec.ofBool f.cf).setWidth 16

/-- `SetFlagsWord(v)`: bits 15 to 12, 5, 3 and 1 are ignored (R62). -/
def setFlagsWord (v : Word) : Flags where
  cf := v.getLsbD 0
  pf := v.getLsbD 2
  af := v.getLsbD 4
  zf := v.getLsbD 6
  sf := v.getLsbD 7
  tf := v.getLsbD 8
  intf := v.getLsbD 9
  df := v.getLsbD 10
  ovf := v.getLsbD 11

/-- The offset of a vector's table entry, `4n mod 2^16` (R801). -/
def vectorOffset (n : Byte) : Word := n.setWidth 16 <<< 2

/-- `InterruptEntry(n, ret)` (R820): push FLAGS, clear TF and IF, push CS and the return offset, and jump
through the vector table. Every way of taking an interrupt goes through it. -/
def interruptEntry (n : Byte) (ret : Word) : EU Unit := do
  modifyEu fun e => { e with selfEntered := true }
  let c ← readS State.cpu
  push (flagsWord c.flags)
  modifyFlags fun f => { f with tf := false, intf := false }
  let c ← readS State.cpu
  push c.cs
  push ret
  let off ← memRead16 0 (vectorOffset n)
  let sel ← memRead16 0 (vectorOffset n + 2)
  jumpFar sel off

/-- `InterruptEntry(n, IP)`. At the end of an instruction's bytes IP is the offset after it (IPn), which is
what the internal interrupts save (R806, R807); at a boundary it is the next instruction's offset. -/
def enterAtIp (n : Byte) : EU Unit := do
  let c ← readS State.cpu
  interruptEntry n c.ip

/-- `raise DivideError()` (R806). -/
def divideError : EU Unit := enterAtIp 0

/-- The return from an interrupt (R830, R683): pop IP, CS and FLAGS, and jump. -/
def interruptReturn : EU Unit := do
  let off ← pop
  let sel ← pop
  let f ← pop
  jumpFar sel off
  modifyFlags fun _ => setFlagsWord f

/-- Set the LOCK output (R66, R162). -/
def setLockOut (b : Bool) : EU Unit := modifyS fun s => { s with biu := { s.biu with lockOut := b } }

/-- `IntaSequence()`: two locked INTA pulses; the second gives the vector (R822). -/
def intaSequence : EU Byte := do
  setLockOut true
  let _ ← busAccess ⟨.interruptAcknowledge, .inta false, 0⟩
  let n ← busAccess ⟨.interruptAcknowledge, .inta true, 0⟩
  setLockOut false
  pure n

/-- A maskable or non-maskable interrupt is to be recognised: `nmiLatch = 1 or (IF = 1 and INTR = 1)` (R814,
R815, R816). -/
def interruptPending (s : State) : Bool := s.nmiLatch || (s.cpu.flags.intf && cpuIntr s.pics)

/-- The prefix state of an instruction boundary (R68); the next instruction starts at `ip`. -/
def clearPrefixes (ip : Word) (e : Eu) : Eu :=
  { e with segOvr := none, rep := .none, lock := false, start := ip, fetched := [] }

/-- The end of an instruction: `lockOut` returns to 0 (R740), the machine is at a boundary (R68), and nothing of
the instruction's intermediate values is left (R67). -/
def endInstr : EU Unit := modifyS fun s =>
  { s with
    eu := clearPrefixes s.cpu.ip s.eu
    progress := none
    biu := { s.biu with lockOut := false } }

/-- A unit that only changes the Execution Engine's own state, and the Execution Engine goes on from there: a
prefix, or a WAIT that has to wait. -/
def goOn (f : Eu → Eu) (s : State) : Result := .next { s with eu := f s.eu, progress := none }

/-- The outcome of a piece of work: an abandoned instruction leaves the state reached. -/
def runEU (m : EU Unit) (s : State) : Result :=
  match m s with
  | .ok _ t => .next t
  | .error .reset t => .next t
  | .error .frozen t => .next t
  | .error .timeout _ => .fault .busTimeout

/-- A whole instruction: with a LOCK prefix the bus is locked from before its first transaction to after
its last (R162, R740). -/
def complete (body : EU Unit) (s : State) : Result :=
  runEU (do
    if s.eu.lock then setLockOut true
    body
    endInstr) s

/-- The state after a DecodeFault (R803): the record is set, IP is again the offset of the instruction's
first byte (95_test_vectors.md P-11), and nothing else changes. -/
def faultedState (s : State) : State :=
  { s with
    cpu := { s.cpu with ip := s.eu.start }
    eu := { s.eu with faulted := some ⟨s.cpu.cs, s.eu.start, s.eu.fetched⟩ }
    progress := none }

/-- `raise DecodeFault` (R803). -/
def decodeFault (s : State) : Result := .next (faultedState s)

/-- The encodings that `UNDOC_ADMITTED` can admit; the others have no meaning to admit (R240). -/
def undocAdmissible : UndocId → Bool
  | .u7 => false
  | .u8 => false
  | .u9 => false
  | .u17 => false
  | .u18 => false
  | .u1 => true
  | .u2 => true
  | .u3 => true
  | .u4 => true
  | .u5 => true
  | .u6 => true
  | .u10 => true
  | .u11 => true
  | .u12 => true
  | .u13 => true
  | .u14 => true
  | .u15 => true
  | .u16 => true

/-- Whether an undocumented encoding has its silicon meaning (R240). -/
def admits (p : Params) (u : UndocId) : Bool := undocAdmissible u && p.undocAdmitted.contains u

/-- The meaning of an undocumented encoding: its silicon meaning if admitted, else DecodeFault (R240). -/
def ifAdmitted (u : UndocId) (meaning : State → Result) (s : State) : Result :=
  if admits s.params u then meaning s else decodeFault s

end Sys2Proof.Machine
end

