-- ==== Sys2Proof/Machine/Flags.lean ====
section
/-! DEFINITION. The ALU (41_arithmetic.md R400 to R409; 42_logic_shift.md R510 to R517): results and flag
computations at width 8 or 16, as functions of the operands and the flags before. -/

namespace Sys2Proof.Machine

/-- A result with the flags after it. -/
structure AluOut (w : Nat) where
  result : BitVec w
  flags : Flags
  deriving DecidableEq, Repr

/-- `SZP(w, r)` (R402). -/
def szpFlags {w : Nat} (r : BitVec w) (f : Flags) : Flags :=
  { f with sf := r.msb, zf := decide (r = 0), pf := parity8 r }

/-- `Add(w, a, b, c)` (R400). -/
def addAlu {w : Nat} (a b : BitVec w) (c : Bool) (f : Flags) : AluOut w :=
  let s := a.toNat + b.toNat + c.toNat
  let r := BitVec.ofNat w s
  { result := r
    flags := szpFlags r { f with
      cf := decide (2 ^ w ≤ s)
      af := decide (16 ≤ a.toNat % 16 + b.toNat % 16 + c.toNat)
      ovf := (a.msb == b.msb) && (r.msb != a.msb) } }

/-- `Sub(w, a, b, c)` (R401). -/
def subAlu {w : Nat} (a b : BitVec w) (c : Bool) (f : Flags) : AluOut w :=
  let r := BitVec.ofInt w ((a.toNat : Int) - b.toNat - c.toNat)
  { result := r
    flags := szpFlags r { f with
      cf := decide (a.toNat < b.toNat + c.toNat)
      af := decide (a.toNat % 16 < b.toNat % 16 + c.toNat)
      ovf := (a.msb != b.msb) && (r.msb != a.msb) } }

/-- The flags of AND, OR, XOR and TEST for a result, `af` being the drawn AF (R403). -/
def logicFlags {w : Nat} (r : BitVec w) (af : Bool) (f : Flags) : Flags :=
  szpFlags r { f with cf := false, ovf := false, af := af }

/-- Whether an ALU operation leaves AF undefined (R403, R407). -/
def aluIsLogic : AluOp → Bool
  | .or => true
  | .and => true
  | .xor => true
  | .add => false
  | .adc => false
  | .sbb => false
  | .sub => false
  | .cmp => false

/-- Whether an ALU operation writes its destination (R408: all but CMP). -/
def aluWrites : AluOp → Bool
  | .cmp => false
  | .add => true
  | .or => true
  | .adc => true
  | .sbb => true
  | .and => true
  | .sub => true
  | .xor => true

/-- `Alu(op, w, a, b)` (R407); `af` is the value AF takes where it is undefined. -/
def aluResult {w : Nat} (op : AluOp) (a b : BitVec w) (af : Bool) (f : Flags) : AluOut w :=
  match op with
  | .add => addAlu a b false f
  | .or => ⟨a ||| b, logicFlags (a ||| b) af f⟩
  | .adc => addAlu a b f.cf f
  | .sbb => subAlu a b f.cf f
  | .and => ⟨a &&& b, logicFlags (a &&& b) af f⟩
  | .sub => subAlu a b false f
  | .xor => ⟨a ^^^ b, logicFlags (a ^^^ b) af f⟩
  | .cmp => subAlu a b false f

/-- INC: `Add(w, a, 1, 0)` with CF kept (R404). -/
def incAlu {w : Nat} (a : BitVec w) (f : Flags) : AluOut w :=
  let o := addAlu a 1 false f
  { o with flags := { o.flags with cf := f.cf } }

/-- DEC: `Sub(w, a, 1, 0)` with CF kept (R404). -/
def decAlu {w : Nat} (a : BitVec w) (f : Flags) : AluOut w :=
  let o := subAlu a 1 false f
  { o with flags := { o.flags with cf := f.cf } }

/-- NEG: `Sub(w, 0, a, 0)` (R417). -/
def negAlu {w : Nat} (a : BitVec w) (f : Flags) : AluOut w := subAlu 0 a false f

/-- The one-bit step of a shift or rotate: the new value and the new CF (R511 to R517). -/
def shiftStep {w : Nat} (k : ShiftKind) (x : BitVec w) (c : Bool) : BitVec w × Bool :=
  let top : BitVec w → BitVec w := fun b => b <<< (w - 1)
  let bit : Bool → BitVec w := fun b => (BitVec.ofBool b).setWidth w
  match k with
  | .rol => ((x <<< 1) ||| bit x.msb, x.msb)
  | .ror => ((x >>> 1) ||| top (bit (x.getLsbD 0)), x.getLsbD 0)
  | .rcl => ((x <<< 1) ||| bit c, x.msb)
  | .rcr => ((x >>> 1) ||| top (bit c), x.getLsbD 0)
  | .shl => (x <<< 1, x.msb)
  | .shr => (x >>> 1, x.getLsbD 0)
  | .sar => ((x >>> 1) ||| top (bit x.msb), x.getLsbD 0)

/-- `n` one-bit steps (R510). -/
def shiftSteps {w : Nat} (k : ShiftKind) : Nat → BitVec w → Bool → BitVec w × Bool
  | 0, x, c => (x, c)
  | n + 1, x, c => shiftSteps k n (shiftStep k x c).1 (shiftStep k x c).2

/-- `OF1_kind(w, x0, x, CF)`: OF after a shift or rotate by one (R511 to R517). -/
def shiftOverflow1 {w : Nat} (k : ShiftKind) (x0 x : BitVec w) (c : Bool) : Bool :=
  match k with
  | .rol => x.msb ^^ c
  | .ror => x.msb ^^ x.getLsbD (w - 2)
  | .rcl => x.msb ^^ c
  | .rcr => x.msb ^^ x.getLsbD (w - 2)
  | .shl => x.msb ^^ c
  | .shr => x0.msb
  | .sar => false

/-- Whether a kind is a shift, which sets SF, ZF and PF and leaves AF undefined, and not a rotate (R510). -/
def isShift : ShiftKind → Bool
  | .rol => false
  | .ror => false
  | .rcl => false
  | .rcr => false
  | .shl => true
  | .shr => true
  | .sar => true

/-- The result and flags of a shift or rotate of `x` by `n ≥ 1` (R510); `ovf` and `af` are the values OF and
AF take where they are undefined. -/
def shiftResult {w : Nat} (k : ShiftKind) (n : Nat) (x : BitVec w) (ovf af : Bool) (f : Flags) :
    AluOut w :=
  let r := shiftSteps k n x f.cf
  let g := { f with cf := r.2, ovf := if n = 1 then shiftOverflow1 k x r.1 r.2 else ovf }
  { result := r.1, flags := if isShift k then szpFlags r.1 { g with af := af } else g }

/-- The condition of a conditional jump (R664). -/
def condHolds (cc : Cond) (f : Flags) : Bool :=
  match cc with
  | .jo => f.ovf
  | .jno => !f.ovf
  | .jb => f.cf
  | .jnb => !f.cf
  | .jz => f.zf
  | .jnz => !f.zf
  | .jbe => f.cf || f.zf
  | .ja => !f.cf && !f.zf
  | .js => f.sf
  | .jns => !f.sf
  | .jp => f.pf
  | .jnp => !f.pf
  | .jl => f.sf != f.ovf
  | .jge => f.sf == f.ovf
  | .jle => f.zf || (f.sf != f.ovf)
  | .jg => !f.zf && (f.sf == f.ovf)

/-- DAA: the new AL with CF and AF, before SF, ZF, PF and OF (R422). -/
def daaAlu (al : Byte) (f : Flags) : AluOut 8 :=
  let low := decide (al.toNat % 16 > 9) || f.af
  let al1 := if low then al + 6 else al
  let high := decide (al.toNat > 0x99) || f.cf
  let al2 := if high then al1 + 0x60#8 else al1
  { result := al2, flags := { f with af := low, cf := high } }

/-- DAS: the new AL with CF and AF, before SF, ZF, PF and OF (R423). -/
def dasAlu (al : Byte) (f : Flags) : AluOut 8 :=
  let low := decide (al.toNat % 16 > 9) || f.af
  let al1 := if low then al - 6 else al
  let high := decide (al.toNat > 0x99) || f.cf
  let al2 := if high then al1 - 0x60#8 else al1
  { result := al2, flags := { f with af := low, cf := high } }

/-- Whether AAA and AAS adjust: `AL[3:0] > 9 or AF = 1` (R424, R425). -/
def asciiAdjusts (al : Byte) (f : Flags) : Bool := decide (al.toNat % 16 > 9) || f.af

end Sys2Proof.Machine
end

