-- ==== Sys2Proof/Machine/Operands.lean ====
section
/-! DEFINITION. The operands (10_state.md R50 to R55; 30_encoding.md R215 to R232): registers and their
byte views, effective addresses, segment selection, and the r/m operand as a place that is computed once
and then read and written. -/

namespace Sys2Proof.Machine

/-- `r16[i]` (R11, R215). -/
def reg16 (c : Cpu) : Reg16 → Word
  | .ax => c.ax
  | .cx => c.cx
  | .dx => c.dx
  | .bx => c.bx
  | .sp => c.sp
  | .bp => c.bp
  | .si => c.si
  | .di => c.di

/-- `r16[i] <- v` (R11). -/
def setReg16 (r : Reg16) (v : Word) (c : Cpu) : Cpu :=
  match r with
  | .ax => { c with ax := v }
  | .cx => { c with cx := v }
  | .dx => { c with dx := v }
  | .bx => { c with bx := v }
  | .sp => { c with sp := v }
  | .bp => { c with bp := v }
  | .si => { c with si := v }
  | .di => { c with di := v }

/-- `r8[i]` (R11, R51, R215): a view of AX, CX, DX or BX. -/
def reg8 (c : Cpu) : Reg8 → Byte
  | .al => loByte c.ax
  | .cl => loByte c.cx
  | .dl => loByte c.dx
  | .bl => loByte c.bx
  | .ah => hiByte c.ax
  | .ch => hiByte c.cx
  | .dh => hiByte c.dx
  | .bh => hiByte c.bx

/-- `r8[i] <- v`: the other half is unchanged (R51). -/
def setReg8 (r : Reg8) (v : Byte) (c : Cpu) : Cpu :=
  match r with
  | .al => { c with ax := joinBytes (hiByte c.ax) v }
  | .cl => { c with cx := joinBytes (hiByte c.cx) v }
  | .dl => { c with dx := joinBytes (hiByte c.dx) v }
  | .bl => { c with bx := joinBytes (hiByte c.bx) v }
  | .ah => { c with ax := joinBytes v (loByte c.ax) }
  | .ch => { c with cx := joinBytes v (loByte c.cx) }
  | .dh => { c with dx := joinBytes v (loByte c.dx) }
  | .bh => { c with bx := joinBytes v (loByte c.bx) }

/-- `sreg[i]` (R11, R216). -/
def sreg (c : Cpu) : SReg → Word
  | .es => c.es
  | .cs => c.cs
  | .ss => c.ss
  | .ds => c.ds

/-- `sreg[i] <- v` (R11). -/
def setSreg (r : SReg) (v : Word) (c : Cpu) : Cpu :=
  match r with
  | .es => { c with es := v }
  | .cs => { c with cs := v }
  | .ss => { c with ss := v }
  | .ds => { c with ds := v }

/-- The sum of base and index (R220). -/
def baseSum (c : Cpu) : Base → Word
  | .bxSi => c.bx + c.si
  | .bxDi => c.bx + c.di
  | .bpSi => c.bp + c.si
  | .bpDi => c.bp + c.di
  | .si => c.si
  | .di => c.di
  | .bp => c.bp
  | .bx => c.bx

/-- `EA` (R220): base, index and displacement mod 2^16; an 8-bit displacement is sign-extended (R221). -/
def effAddr (c : Cpu) : MemOp → Word
  | .ind b => baseSum c b
  | .direct d => d
  | .disp8 b d => baseSum c b + sext16 d
  | .disp16 b d => baseSum c b + d

/-- Whether a base is BP-based (R225). -/
def usesBp : Base → Bool
  | .bpSi => true
  | .bpDi => true
  | .bp => true
  | .bxSi => false
  | .bxDi => false
  | .si => false
  | .di => false
  | .bx => false

/-- The default segment of a memory operand (R220, R225). -/
def defaultSeg : MemOp → SReg
  | .ind b => if usesBp b then .ss else .ds
  | .direct _ => .ds
  | .disp8 b _ => if usesBp b then .ss else .ds
  | .disp16 b _ => if usesBp b then .ss else .ds

/-- The segment value of an overridable access with the given default (R225). -/
def segValue (s : State) (dflt : SReg) : Word := sreg s.cpu (s.eu.segOvr.getD dflt)

/-- Where an r/m operand is: a register, or a logical address computed once (R227). -/
inductive Place (ρ : Type) where
  | reg (r : ρ)
  | mem (seg off : Word)
  deriving DecidableEq, Repr

/-- The place of a memory operand. -/
def memPlace (s : State) (m : MemOp) : Word × Word := (segValue s (defaultSeg m), effAddr s.cpu m)

/-- The place of an r/m operand in a state. -/
def place {ρ : Type} (s : State) : Rm ρ → Place ρ
  | .reg r => .reg r
  | .mem m => .mem (memPlace s m).1 (memPlace s m).2

/-- Compute the place of an r/m operand (R227). -/
def resolve {ρ : Type} (e : Rm ρ) : EU (Place ρ) := readS fun s => place s e

/-- `ReadE(8)` (R226). -/
def readPlace8 : Place Reg8 → EU Byte
  | .reg r => readS fun s => reg8 s.cpu r
  | .mem seg off => memRead8 seg off

/-- `ReadE(16)` (R226). -/
def readPlace16 : Place Reg16 → EU Word
  | .reg r => readS fun s => reg16 s.cpu r
  | .mem seg off => memRead16 seg off

/-- `WriteE(8, v)` (R227). -/
def writePlace8 (p : Place Reg8) (v : Byte) : EU Unit :=
  match p with
  | .reg r => modifyCpu (setReg8 r v)
  | .mem seg off => memWrite8 seg off v

/-- `WriteE(16, v)` (R227). -/
def writePlace16 (p : Place Reg16) (v : Word) : EU Unit :=
  match p with
  | .reg r => modifyCpu (setReg16 r v)
  | .mem seg off => memWrite16 seg off v

/-- `ReadG(8)` (R227). -/
def getReg8 (r : Reg8) : EU Byte := readS fun s => reg8 s.cpu r

/-- `ReadG(16)` (R227). -/
def getReg16 (r : Reg16) : EU Word := readS fun s => reg16 s.cpu r

/-- `WriteG(8, v)` (R227). -/
def putReg8 (r : Reg8) (v : Byte) : EU Unit := modifyCpu (setReg8 r v)

/-- `WriteG(16, v)` (R227). -/
def putReg16 (r : Reg16) (v : Word) : EU Unit := modifyCpu (setReg16 r v)

/-- Set the interrupt shadow (R813). -/
def setShadow : EU Unit := modifyEu fun e => { e with shadow := true }

end Sys2Proof.Machine
end

