-- ==== Sys2Proof/Machine/Alu.lean ====
section
/-! DEFINITION. The binary ALU forms (41_arithmetic.md R408): every encoding of ADD, OR, ADC, SBB, AND,
SUB, XOR and CMP is one of these with its operation. -/

namespace Sys2Proof.Machine

/-- A draw, where one is called for (R405). -/
def drawIf (b : Bool) : EU Bool := if b then drawBit else pure false

/-- `Alu(op, w, a, b)`: the flags are written and the result is returned (R407). -/
def aluCompute {w : Nat} (op : AluOp) (a b : BitVec w) : EU (BitVec w) := do
  let af ← drawIf (aluIsLogic op)
  let c ← readS State.cpu
  modifyFlags fun _ => (aluResult op a b af c.flags).flags
  pure (aluResult op a b af c.flags).result

/-- `WriteE(8, r)` unless the operation is CMP. -/
def aluStore8 (op : AluOp) (p : Place Reg8) (r : Byte) : EU Unit :=
  if aluWrites op then writePlace8 p r else pure ()

/-- `WriteE(16, r)` unless the operation is CMP. -/
def aluStore16 (op : AluOp) (p : Place Reg16) (r : Word) : EU Unit :=
  if aluWrites op then writePlace16 p r else pure ()

/-- `op*8+0`: Eb,Gb (R408). -/
def aluEbGb (op : AluOp) (dst : Rm Reg8) (src : Reg8) : EU Unit := do
  let p ← resolve dst
  let a ← readPlace8 p
  let b ← getReg8 src
  let r ← aluCompute op a b
  aluStore8 op p r

/-- `op*8+1`: Ew,Gw (R408). -/
def aluEwGw (op : AluOp) (dst : Rm Reg16) (src : Reg16) : EU Unit := do
  let p ← resolve dst
  let a ← readPlace16 p
  let b ← getReg16 src
  let r ← aluCompute op a b
  aluStore16 op p r

/-- `op*8+2`: Gb,Eb (R408). -/
def aluGbEb (op : AluOp) (dst : Reg8) (src : Rm Reg8) : EU Unit := do
  let p ← resolve src
  let a ← getReg8 dst
  let b ← readPlace8 p
  let r ← aluCompute op a b
  aluStore8 op (.reg dst) r

/-- `op*8+3`: Gw,Ew (R408). -/
def aluGwEw (op : AluOp) (dst : Reg16) (src : Rm Reg16) : EU Unit := do
  let p ← resolve src
  let a ← getReg16 dst
  let b ← readPlace16 p
  let r ← aluCompute op a b
  aluStore16 op (.reg dst) r

/-- `80 /op`: Eb,Ib (R408). -/
def aluEbIb (op : AluOp) (dst : Rm Reg8) (imm : Byte) : EU Unit := do
  let p ← resolve dst
  let a ← readPlace8 p
  let r ← aluCompute op a imm
  aluStore8 op p r

/-- `81 /op`: Ew,Iw (R408). -/
def aluEwIw (op : AluOp) (dst : Rm Reg16) (imm : Word) : EU Unit := do
  let p ← resolve dst
  let a ← readPlace16 p
  let r ← aluCompute op a imm
  aluStore16 op p r

/-- `83 /op`: Ew,Ibs, the immediate sign-extended (R408, R230). -/
def aluEwIbs (op : AluOp) (dst : Rm Reg16) (imm : Byte) : EU Unit := aluEwIw op dst (sext16 imm)

/-- `op*8+4`: AL,Ib (R408). -/
def aluAlIb (op : AluOp) (imm : Byte) : EU Unit := aluEbIb op (.reg .al) imm

/-- `op*8+5`: AX,Iw (R408). -/
def aluAxIw (op : AluOp) (imm : Word) : EU Unit := aluEwIw op (.reg .ax) imm

end Sys2Proof.Machine
end

