-- ==== Sys2Proof/Machine/Arithmetic.lean ====
section
/-! DEFINITION. The arithmetic instructions (41_arithmetic.md R410 to R429) and the meaningless FE /2 to
/7 (30_encoding.md R240 U18): shared operations, then one meaning per constructor. -/

namespace Sys2Proof.Machine

/-- A read-modify-write of one byte operand that writes flags. -/
def unary8 (f : Byte → Flags → AluOut 8) (dst : Rm Reg8) : EU Unit := do
  let p ← resolve dst
  let a ← readPlace8 p
  let c ← readS State.cpu
  modifyFlags fun _ => (f a c.flags).flags
  writePlace8 p (f a c.flags).result

/-- A read-modify-write of one word operand that writes flags. -/
def unary16 (f : Word → Flags → AluOut 16) (dst : Rm Reg16) : EU Unit := do
  let p ← resolve dst
  let a ← readPlace16 p
  let c ← readS State.cpu
  modifyFlags fun _ => (f a c.flags).flags
  writePlace16 p (f a c.flags).result

/-- INC r16 (R415). -/
def incR16Op (dst : Reg16) : EU Unit := unary16 incAlu (.reg dst)

/-- INC Eb (R415). -/
def incEbOp (dst : Rm Reg8) : EU Unit := unary8 incAlu dst

/-- INC Ew (R415). -/
def incEwOp (dst : Rm Reg16) : EU Unit := unary16 incAlu dst

/-- DEC r16 (R416). -/
def decR16Op (dst : Reg16) : EU Unit := unary16 decAlu (.reg dst)

/-- DEC Eb (R416). -/
def decEbOp (dst : Rm Reg8) : EU Unit := unary8 decAlu dst

/-- DEC Ew (R416). -/
def decEwOp (dst : Rm Reg16) : EU Unit := unary16 decAlu dst

/-- NEG Eb (R417). -/
def negEbOp (dst : Rm Reg8) : EU Unit := unary8 negAlu dst

/-- NEG Ew (R417). -/
def negEwOp (dst : Rm Reg16) : EU Unit := unary16 negAlu dst

/-- The flags of MUL and IMUL: CF and OF as given, SF, ZF, AF and PF undefined (R418, R419). -/
def mulFlags (big : Bool) : EU Unit := do
  let sf ← drawBit
  let zf ← drawBit
  let af ← drawBit
  let pf ← drawBit
  modifyFlags fun f => { f with cf := big, ovf := big, sf := sf, zf := zf, af := af, pf := pf }

/-- All six status flags undefined (R420, R421). -/
def drawStatusFlags : EU Unit := do
  let ovf ← drawBit
  let sf ← drawBit
  let zf ← drawBit
  let af ← drawBit
  let pf ← drawBit
  let cf ← drawBit
  modifyFlags fun f => { f with ovf := ovf, sf := sf, zf := zf, af := af, pf := pf, cf := cf }

/-- The unsigned product AL * s (R418). -/
def mulByte (al s : Byte) : Word := zext16 al * zext16 s

/-- The signed product AL * s (R419). -/
def imulByte (al s : Byte) : Word := BitVec.ofInt 16 (al.toInt * s.toInt)

/-- The unsigned product AX * s, as DX:AX (R418). -/
def mulWord (ax s : Word) : BitVec 32 := ax.setWidth 32 * s.setWidth 32

/-- The signed product AX * s, as DX:AX (R419). -/
def imulWord (ax s : Word) : BitVec 32 := BitVec.ofInt 32 (ax.toInt * s.toInt)

/-- The low word of a double word. -/
def loWord (v : BitVec 32) : Word := v.setWidth 16

/-- The high word of a double word. -/
def hiWord (v : BitVec 32) : Word := (v >>> 16).setWidth 16

/-- `DX:AX` (R9). -/
def dxAx (c : Cpu) : BitVec 32 := c.dx ++ c.ax

/-- `DX:AX <- v`. -/
def setDxAx (v : BitVec 32) (c : Cpu) : Cpu := { c with dx := hiWord v, ax := loWord v }

/-- MUL Eb (R418). -/
def mulEbOp (src : Rm Reg8) : EU Unit := do
  let p ← resolve src
  let s ← readPlace8 p
  let c ← readS State.cpu
  let v := mulByte (loByte c.ax) s
  modifyCpu fun c => { c with ax := v }
  mulFlags (hiByte v != 0)

/-- MUL Ew (R418). -/
def mulEwOp (src : Rm Reg16) : EU Unit := do
  let p ← resolve src
  let s ← readPlace16 p
  let c ← readS State.cpu
  let v := mulWord c.ax s
  modifyCpu (setDxAx v)
  mulFlags (hiWord v != 0)

/-- IMUL Eb (R419). -/
def imulEbOp (src : Rm Reg8) : EU Unit := do
  let p ← resolve src
  let s ← readPlace8 p
  let c ← readS State.cpu
  let v := imulByte (loByte c.ax) s
  modifyCpu fun c => { c with ax := v }
  mulFlags (v != sext16 (loByte v))

/-- IMUL Ew (R419). -/
def imulEwOp (src : Rm Reg16) : EU Unit := do
  let p ← resolve src
  let s ← readPlace16 p
  let c ← readS State.cpu
  let v := imulWord c.ax s
  modifyCpu (setDxAx v)
  mulFlags (v != (loWord v).signExtend 32)

/-- The quotient and remainder of DIV at byte width, or none for a divide error (R420). -/
def divByte (ax : Word) (s : Byte) : Option (Byte × Byte) :=
  if s = 0 then none
  else if ax.toNat / s.toNat > 0xFF then none
  else some (BitVec.ofNat 8 (ax.toNat / s.toNat), BitVec.ofNat 8 (ax.toNat % s.toNat))

/-- The quotient and remainder of DIV at word width, or none for a divide error (R420). -/
def divWord (n : BitVec 32) (s : Word) : Option (Word × Word) :=
  if s = 0 then none
  else if n.toNat / s.toNat > 0xFFFF then none
  else some (BitVec.ofNat 16 (n.toNat / s.toNat), BitVec.ofNat 16 (n.toNat % s.toNat))

/-- The quotient and remainder of IDIV at byte width, or none for a divide error (R421). -/
def idivByte (ax : Word) (s : Byte) : Option (Byte × Byte) :=
  if s = 0 then none
  else
    let q := ax.toInt.tdiv s.toInt
    if q < -127 ∨ q > 127 then none
    else some (BitVec.ofInt 8 q, BitVec.ofInt 8 (ax.toInt.tmod s.toInt))

/-- The quotient and remainder of IDIV at word width, or none for a divide error (R421). -/
def idivWord (n : BitVec 32) (s : Word) : Option (Word × Word) :=
  if s = 0 then none
  else
    let q := n.toInt.tdiv s.toInt
    if q < -32767 ∨ q > 32767 then none
    else some (BitVec.ofInt 16 q, BitVec.ofInt 16 (n.toInt.tmod s.toInt))

/-- A division at byte width: quotient to AL and remainder to AH, or the divide error (R420, R421). -/
def divideByte (f : Word → Byte → Option (Byte × Byte)) (src : Rm Reg8) : EU Unit := do
  let p ← resolve src
  let s ← readPlace8 p
  let c ← readS State.cpu
  match f c.ax s with
  | none => divideError
  | some (q, m) => do
    modifyCpu fun c => { c with ax := joinBytes m q }
    drawStatusFlags

/-- A division at word width: quotient to AX and remainder to DX, or the divide error (R420, R421). -/
def divideWord (f : BitVec 32 → Word → Option (Word × Word)) (src : Rm Reg16) : EU Unit := do
  let p ← resolve src
  let s ← readPlace16 p
  let c ← readS State.cpu
  match f (dxAx c) s with
  | none => divideError
  | some (q, m) => do
    modifyCpu fun c => { c with ax := q, dx := m }
    drawStatusFlags

/-- DIV Eb (R420). -/
def divEbOp (src : Rm Reg8) : EU Unit := divideByte divByte src

/-- DIV Ew (R420). -/
def divEwOp (src : Rm Reg16) : EU Unit := divideWord divWord src

/-- IDIV Eb (R421). -/
def idivEbOp (src : Rm Reg8) : EU Unit := divideByte idivByte src

/-- IDIV Ew (R421). -/
def idivEwOp (src : Rm Reg16) : EU Unit := divideWord idivWord src

/-- A decimal adjust of AL: its flags, SZP of the result, and OF undefined (R422, R423). -/
def decimalAdjust (f : Byte → Flags → AluOut 8) : EU Unit := do
  let c ← readS State.cpu
  let o := f (loByte c.ax) c.flags
  let ovf ← drawBit
  modifyCpu fun c => { setReg8 .al o.result c with flags := { szpFlags o.result o.flags with ovf := ovf } }

/-- DAA (R422). -/
def daaOp : EU Unit := decimalAdjust daaAlu

/-- DAS (R423). -/
def dasOp : EU Unit := decimalAdjust dasAlu

/-- AX after an ASCII adjust that adjusts by `low` and `high`, AL then keeping its low digit (R424, R425). -/
def asciiAx (ax : Word) (low high : Byte) : Word :=
  joinBytes (hiByte ax + high) ((loByte ax + low) &&& 0x0F#8)

/-- AAA and AAS: adjust AL by `low` and AH by `high` if needed, keep AL's low digit; OF, SF, ZF and PF are
undefined (R424, R425). -/
def asciiAdjust (low high : Byte) : EU Unit := do
  let c ← readS State.cpu
  let adj := asciiAdjusts (loByte c.ax) c.flags
  let ovf ← drawBit
  let sf ← drawBit
  let zf ← drawBit
  let pf ← drawBit
  modifyCpu fun c =>
    { c with
      ax := if adj then asciiAx c.ax low high else asciiAx c.ax 0 0
      flags := { c.flags with af := adj, cf := adj, ovf := ovf, sf := sf, zf := zf, pf := pf } }

/-- AAA (R424). -/
def aaaOp : EU Unit := asciiAdjust 6 1

/-- AAS (R425). -/
def aasOp : EU Unit := asciiAdjust (0 - 6) (0 - 1)

/-- AX with SZP of its low byte, and OF, AF and CF undefined (R426, R427). -/
def asciiResult (ax : Word) : EU Unit := do
  let ovf ← drawBit
  let af ← drawBit
  let cf ← drawBit
  modifyCpu fun c =>
    { c with ax := ax, flags := { szpFlags (loByte ax) c.flags with ovf := ovf, af := af, cf := cf } }

/-- AAM with base `base` (R426). -/
def aamOp (base : Byte) : EU Unit := do
  let c ← readS State.cpu
  if base = 0 then divideError
  else asciiResult (joinBytes (loByte c.ax / base) (loByte c.ax % base))

/-- AAD with base `base` (R427). -/
def aadOp (base : Byte) : EU Unit := do
  let c ← readS State.cpu
  asciiResult (joinBytes 0 (loByte c.ax + hiByte c.ax * base))

/-- CBW (R428). -/
def cbwOp : EU Unit := modifyCpu fun c => { c with ax := sext16 (loByte c.ax) }

/-- CWD (R429). -/
def cwdOp : EU Unit := modifyCpu fun c => { c with dx := if c.ax.msb then 0xFFFF#16 else 0 }

/-- 00 /r: ADD Eb,Gb (R410). -/
def execAddEbGb (dst : Rm Reg8) (src : Reg8) (s : State) : Result :=
  complete (aluEbGb .add dst src) s

/-- 01 /r: ADD Ew,Gw (R410). -/
def execAddEwGw (dst : Rm Reg16) (src : Reg16) (s : State) : Result :=
  complete (aluEwGw .add dst src) s

/-- 02 /r: ADD Gb,Eb (R410). -/
def execAddGbEb (dst : Reg8) (src : Rm Reg8) (s : State) : Result :=
  complete (aluGbEb .add dst src) s

/-- 03 /r: ADD Gw,Ew (R410). -/
def execAddGwEw (dst : Reg16) (src : Rm Reg16) (s : State) : Result :=
  complete (aluGwEw .add dst src) s

/-- 04 ib: ADD AL,Ib (R410). -/
def execAddAlIb (imm : Byte) (s : State) : Result :=
  complete (aluAlIb .add imm) s

/-- 05 iw: ADD AX,Iw (R410). -/
def execAddAxIw (imm : Word) (s : State) : Result :=
  complete (aluAxIw .add imm) s

/-- 80 /0 ib: ADD Eb,Ib (R410). -/
def execAddEbIb (dst : Rm Reg8) (imm : Byte) (s : State) : Result :=
  complete (aluEbIb .add dst imm) s

/-- 81 /0 iw: ADD Ew,Iw (R410). -/
def execAddEwIw (dst : Rm Reg16) (imm : Word) (s : State) : Result :=
  complete (aluEwIw .add dst imm) s

/-- 83 /0 ib: ADD Ew,Ibs (R410). -/
def execAddEwIbs (dst : Rm Reg16) (imm : Byte) (s : State) : Result :=
  complete (aluEwIbs .add dst imm) s

/-- 82 /0 ib: ADD Eb,Ib, undocumented (R240 U2). -/
def execAddEbIbAlias (dst : Rm Reg8) (imm : Byte) (s : State) : Result :=
  ifAdmitted .u2 (complete (aluEbIb .add dst imm)) s

/-- 10 /r: ADC Eb,Gb (R411). -/
def execAdcEbGb (dst : Rm Reg8) (src : Reg8) (s : State) : Result :=
  complete (aluEbGb .adc dst src) s

/-- 11 /r: ADC Ew,Gw (R411). -/
def execAdcEwGw (dst : Rm Reg16) (src : Reg16) (s : State) : Result :=
  complete (aluEwGw .adc dst src) s

/-- 12 /r: ADC Gb,Eb (R411). -/
def execAdcGbEb (dst : Reg8) (src : Rm Reg8) (s : State) : Result :=
  complete (aluGbEb .adc dst src) s

/-- 13 /r: ADC Gw,Ew (R411). -/
def execAdcGwEw (dst : Reg16) (src : Rm Reg16) (s : State) : Result :=
  complete (aluGwEw .adc dst src) s

/-- 14 ib: ADC AL,Ib (R411). -/
def execAdcAlIb (imm : Byte) (s : State) : Result :=
  complete (aluAlIb .adc imm) s

/-- 15 iw: ADC AX,Iw (R411). -/
def execAdcAxIw (imm : Word) (s : State) : Result :=
  complete (aluAxIw .adc imm) s

/-- 80 /2 ib: ADC Eb,Ib (R411). -/
def execAdcEbIb (dst : Rm Reg8) (imm : Byte) (s : State) : Result :=
  complete (aluEbIb .adc dst imm) s

/-- 81 /2 iw: ADC Ew,Iw (R411). -/
def execAdcEwIw (dst : Rm Reg16) (imm : Word) (s : State) : Result :=
  complete (aluEwIw .adc dst imm) s

/-- 83 /2 ib: ADC Ew,Ibs (R411). -/
def execAdcEwIbs (dst : Rm Reg16) (imm : Byte) (s : State) : Result :=
  complete (aluEwIbs .adc dst imm) s

/-- 82 /2 ib: ADC Eb,Ib, undocumented (R240 U2). -/
def execAdcEbIbAlias (dst : Rm Reg8) (imm : Byte) (s : State) : Result :=
  ifAdmitted .u2 (complete (aluEbIb .adc dst imm)) s

/-- 18 /r: SBB Eb,Gb (R413). -/
def execSbbEbGb (dst : Rm Reg8) (src : Reg8) (s : State) : Result :=
  complete (aluEbGb .sbb dst src) s

/-- 19 /r: SBB Ew,Gw (R413). -/
def execSbbEwGw (dst : Rm Reg16) (src : Reg16) (s : State) : Result :=
  complete (aluEwGw .sbb dst src) s

/-- 1A /r: SBB Gb,Eb (R413). -/
def execSbbGbEb (dst : Reg8) (src : Rm Reg8) (s : State) : Result :=
  complete (aluGbEb .sbb dst src) s

/-- 1B /r: SBB Gw,Ew (R413). -/
def execSbbGwEw (dst : Reg16) (src : Rm Reg16) (s : State) : Result :=
  complete (aluGwEw .sbb dst src) s

/-- 1C ib: SBB AL,Ib (R413). -/
def execSbbAlIb (imm : Byte) (s : State) : Result :=
  complete (aluAlIb .sbb imm) s

/-- 1D iw: SBB AX,Iw (R413). -/
def execSbbAxIw (imm : Word) (s : State) : Result :=
  complete (aluAxIw .sbb imm) s

/-- 80 /3 ib: SBB Eb,Ib (R413). -/
def execSbbEbIb (dst : Rm Reg8) (imm : Byte) (s : State) : Result :=
  complete (aluEbIb .sbb dst imm) s

/-- 81 /3 iw: SBB Ew,Iw (R413). -/
def execSbbEwIw (dst : Rm Reg16) (imm : Word) (s : State) : Result :=
  complete (aluEwIw .sbb dst imm) s

/-- 83 /3 ib: SBB Ew,Ibs (R413). -/
def execSbbEwIbs (dst : Rm Reg16) (imm : Byte) (s : State) : Result :=
  complete (aluEwIbs .sbb dst imm) s

/-- 82 /3 ib: SBB Eb,Ib, undocumented (R240 U2). -/
def execSbbEbIbAlias (dst : Rm Reg8) (imm : Byte) (s : State) : Result :=
  ifAdmitted .u2 (complete (aluEbIb .sbb dst imm)) s

/-- 28 /r: SUB Eb,Gb (R412). -/
def execSubEbGb (dst : Rm Reg8) (src : Reg8) (s : State) : Result :=
  complete (aluEbGb .sub dst src) s

/-- 29 /r: SUB Ew,Gw (R412). -/
def execSubEwGw (dst : Rm Reg16) (src : Reg16) (s : State) : Result :=
  complete (aluEwGw .sub dst src) s

/-- 2A /r: SUB Gb,Eb (R412). -/
def execSubGbEb (dst : Reg8) (src : Rm Reg8) (s : State) : Result :=
  complete (aluGbEb .sub dst src) s

/-- 2B /r: SUB Gw,Ew (R412). -/
def execSubGwEw (dst : Reg16) (src : Rm Reg16) (s : State) : Result :=
  complete (aluGwEw .sub dst src) s

/-- 2C ib: SUB AL,Ib (R412). -/
def execSubAlIb (imm : Byte) (s : State) : Result :=
  complete (aluAlIb .sub imm) s

/-- 2D iw: SUB AX,Iw (R412). -/
def execSubAxIw (imm : Word) (s : State) : Result :=
  complete (aluAxIw .sub imm) s

/-- 80 /5 ib: SUB Eb,Ib (R412). -/
def execSubEbIb (dst : Rm Reg8) (imm : Byte) (s : State) : Result :=
  complete (aluEbIb .sub dst imm) s

/-- 81 /5 iw: SUB Ew,Iw (R412). -/
def execSubEwIw (dst : Rm Reg16) (imm : Word) (s : State) : Result :=
  complete (aluEwIw .sub dst imm) s

/-- 83 /5 ib: SUB Ew,Ibs (R412). -/
def execSubEwIbs (dst : Rm Reg16) (imm : Byte) (s : State) : Result :=
  complete (aluEwIbs .sub dst imm) s

/-- 82 /5 ib: SUB Eb,Ib, undocumented (R240 U2). -/
def execSubEbIbAlias (dst : Rm Reg8) (imm : Byte) (s : State) : Result :=
  ifAdmitted .u2 (complete (aluEbIb .sub dst imm)) s

/-- 38 /r: CMP Eb,Gb (R414). -/
def execCmpEbGb (dst : Rm Reg8) (src : Reg8) (s : State) : Result :=
  complete (aluEbGb .cmp dst src) s

/-- 39 /r: CMP Ew,Gw (R414). -/
def execCmpEwGw (dst : Rm Reg16) (src : Reg16) (s : State) : Result :=
  complete (aluEwGw .cmp dst src) s

/-- 3A /r: CMP Gb,Eb (R414). -/
def execCmpGbEb (dst : Reg8) (src : Rm Reg8) (s : State) : Result :=
  complete (aluGbEb .cmp dst src) s

/-- 3B /r: CMP Gw,Ew (R414). -/
def execCmpGwEw (dst : Reg16) (src : Rm Reg16) (s : State) : Result :=
  complete (aluGwEw .cmp dst src) s

/-- 3C ib: CMP AL,Ib (R414). -/
def execCmpAlIb (imm : Byte) (s : State) : Result :=
  complete (aluAlIb .cmp imm) s

/-- 3D iw: CMP AX,Iw (R414). -/
def execCmpAxIw (imm : Word) (s : State) : Result :=
  complete (aluAxIw .cmp imm) s

/-- 80 /7 ib: CMP Eb,Ib (R414). -/
def execCmpEbIb (dst : Rm Reg8) (imm : Byte) (s : State) : Result :=
  complete (aluEbIb .cmp dst imm) s

/-- 81 /7 iw: CMP Ew,Iw (R414). -/
def execCmpEwIw (dst : Rm Reg16) (imm : Word) (s : State) : Result :=
  complete (aluEwIw .cmp dst imm) s

/-- 83 /7 ib: CMP Ew,Ibs (R414). -/
def execCmpEwIbs (dst : Rm Reg16) (imm : Byte) (s : State) : Result :=
  complete (aluEwIbs .cmp dst imm) s

/-- 82 /7 ib: CMP Eb,Ib, undocumented (R240 U2). -/
def execCmpEbIbAlias (dst : Rm Reg8) (imm : Byte) (s : State) : Result :=
  ifAdmitted .u2 (complete (aluEbIb .cmp dst imm)) s

/-- 40+r: INC r16 (R415). -/
def execIncR16 (dst : Reg16) (s : State) : Result :=
  complete (incR16Op dst) s

/-- FE /0: INC Eb (R415). -/
def execIncEb (dst : Rm Reg8) (s : State) : Result :=
  complete (incEbOp dst) s

/-- FF /0: INC Ew (R415). -/
def execIncEw (dst : Rm Reg16) (s : State) : Result :=
  complete (incEwOp dst) s

/-- 48+r: DEC r16 (R416). -/
def execDecR16 (dst : Reg16) (s : State) : Result :=
  complete (decR16Op dst) s

/-- FE /1: DEC Eb (R416). -/
def execDecEb (dst : Rm Reg8) (s : State) : Result :=
  complete (decEbOp dst) s

/-- FF /1: DEC Ew (R416). -/
def execDecEw (dst : Rm Reg16) (s : State) : Result :=
  complete (decEwOp dst) s

/-- F6 /3: NEG Eb (R417). -/
def execNegEb (dst : Rm Reg8) (s : State) : Result :=
  complete (negEbOp dst) s

/-- F7 /3: NEG Ew (R417). -/
def execNegEw (dst : Rm Reg16) (s : State) : Result :=
  complete (negEwOp dst) s

/-- F6 /4: MUL Eb (R418). -/
def execMulEb (src : Rm Reg8) (s : State) : Result :=
  complete (mulEbOp src) s

/-- F7 /4: MUL Ew (R418). -/
def execMulEw (src : Rm Reg16) (s : State) : Result :=
  complete (mulEwOp src) s

/-- F6 /5: IMUL Eb (R419). -/
def execImulEb (src : Rm Reg8) (s : State) : Result :=
  complete (imulEbOp src) s

/-- F7 /5: IMUL Ew (R419). -/
def execImulEw (src : Rm Reg16) (s : State) : Result :=
  complete (imulEwOp src) s

/-- F6 /6: DIV Eb (R420). -/
def execDivEb (src : Rm Reg8) (s : State) : Result :=
  complete (divEbOp src) s

/-- F7 /6: DIV Ew (R420). -/
def execDivEw (src : Rm Reg16) (s : State) : Result :=
  complete (divEwOp src) s

/-- F6 /7: IDIV Eb (R421). -/
def execIdivEb (src : Rm Reg8) (s : State) : Result :=
  complete (idivEbOp src) s

/-- F7 /7: IDIV Ew (R421). -/
def execIdivEw (src : Rm Reg16) (s : State) : Result :=
  complete (idivEwOp src) s

/-- D4 ib with ib not 0A: AAM with another base, undocumented (R240 U16). -/
def execAamBase (base : Byte) (s : State) : Result :=
  ifAdmitted .u16 (complete (aamOp base)) s

/-- D5 ib with ib not 0A: AAD with another base, undocumented (R240 U16). -/
def execAadBase (base : Byte) (s : State) : Result :=
  ifAdmitted .u16 (complete (aadOp base)) s

/-- FE /2, undocumented without a meaning (R240 U18). -/
def execFeUndoc2 (_mode : Bits2) (_rm : Bits3) (s : State) : Result :=
  decodeFault s

/-- FE /3, undocumented without a meaning (R240 U18). -/
def execFeUndoc3 (_mode : Bits2) (_rm : Bits3) (s : State) : Result :=
  decodeFault s

/-- FE /4, undocumented without a meaning (R240 U18). -/
def execFeUndoc4 (_mode : Bits2) (_rm : Bits3) (s : State) : Result :=
  decodeFault s

/-- FE /5, undocumented without a meaning (R240 U18). -/
def execFeUndoc5 (_mode : Bits2) (_rm : Bits3) (s : State) : Result :=
  decodeFault s

/-- FE /6, undocumented without a meaning (R240 U18). -/
def execFeUndoc6 (_mode : Bits2) (_rm : Bits3) (s : State) : Result :=
  decodeFault s

/-- FE /7, undocumented without a meaning (R240 U18). -/
def execFeUndoc7 (_mode : Bits2) (_rm : Bits3) (s : State) : Result :=
  decodeFault s

/-- 27: DAA (R422). -/
def execDaa (s : State) : Result :=
  complete daaOp s

/-- 2F: DAS (R423). -/
def execDas (s : State) : Result :=
  complete dasOp s

/-- 37: AAA (R424). -/
def execAaa (s : State) : Result :=
  complete aaaOp s

/-- 3F: AAS (R425). -/
def execAas (s : State) : Result :=
  complete aasOp s

/-- D4 0A: AAM (R426). -/
def execAam (s : State) : Result :=
  complete (aamOp 0x0A#8) s

/-- D5 0A: AAD (R427). -/
def execAad (s : State) : Result :=
  complete (aadOp 0x0A#8) s

/-- 98: CBW (R428). -/
def execCbw (s : State) : Result :=
  complete cbwOp s

/-- 99: CWD (R429). -/
def execCwd (s : State) : Result :=
  complete cwdOp s

end Sys2Proof.Machine
end

