-- ==== Sys2Proof/Machine/Control.lean ====
section
/-! DEFINITION. The control transfer instructions (44_control_transfer.md R650 to R683): shared operations,
then one meaning per constructor. IP is the offset after the instruction's bytes (`IPn`) when a meaning
begins. -/

namespace Sys2Proof.Machine

/-- Jump by `disp` from IPn when a condition of the state holds (R231, R665). -/
def branchIf (cond : Cpu → Bool) (disp : Byte) : EU Unit := do
  let c ← readS State.cpu
  if cond c then jumpRelative (sext16 disp) else pure ()

/-- A conditional jump (R665). -/
def jccOp (cc : Cond) (disp : Byte) : EU Unit := branchIf (fun c => condHolds cc c.flags) disp

/-- JMP short (R650). -/
def jmpJbOp (disp : Byte) : EU Unit := jumpRelative (sext16 disp)

/-- JMP near (R650). -/
def jmpJwOp (disp : Word) : EU Unit := jumpRelative disp

/-- JMP near indirect (R651). -/
def jmpEwOp (target : Rm Reg16) : EU Unit := do
  let p ← resolve target
  let t ← readPlace16 p
  jump t

/-- JMP far direct (R652). -/
def jmpApOp (off sel : Word) : EU Unit := jumpFar sel off

/-- JMP far indirect (R653). -/
def jmpMpOp (ptr : MemOp) : EU Unit := do
  let p ← readS fun s => memPlace s ptr
  let v ← readFarPointer p.1 p.2
  jumpFar v.2 v.1

/-- CALL near relative (R655). -/
def callJwOp (disp : Word) : EU Unit := do
  let c ← readS State.cpu
  push c.ip
  jump (c.ip + disp)

/-- CALL near indirect: the target is read before SP changes (R656). -/
def callEwOp (target : Rm Reg16) : EU Unit := do
  let p ← resolve target
  let t ← readPlace16 p
  let c ← readS State.cpu
  push c.ip
  jump t

/-- Push CS and IPn, and jump far (R657, R658). -/
def callFar (off sel : Word) : EU Unit := do
  let c ← readS State.cpu
  push c.cs
  push c.ip
  jumpFar sel off

/-- CALL far direct (R657). -/
def callApOp (off sel : Word) : EU Unit := callFar off sel

/-- CALL far indirect: the pointer is read before the pushes (R658). -/
def callMpOp (ptr : MemOp) : EU Unit := do
  let p ← readS fun s => memPlace s ptr
  let v ← readFarPointer p.1 p.2
  callFar v.1 v.2

/-- Add to SP the bytes a return releases (R661, R663). -/
def releaseStack (n : Word) : EU Unit := modifyCpu fun c => { c with sp := c.sp + n }

/-- RET Iw (R661). -/
def retIwOp (release : Word) : EU Unit := do
  let t ← pop
  releaseStack release
  jump t

/-- RET (R660). -/
def retOp : EU Unit := retIwOp 0

/-- RETF Iw (R663). -/
def retfIwOp (release : Word) : EU Unit := do
  let off ← pop
  let sel ← pop
  jumpFar sel off
  releaseStack release

/-- RETF (R662). -/
def retfOp : EU Unit := retfIwOp 0

/-- Decrement CX, then jump if CX is not 0 and the condition holds (R670 to R672). -/
def loopWhile (cond : Flags → Bool) (disp : Byte) : EU Unit := do
  modifyCpu fun c => { c with cx := c.cx - 1 }
  branchIf (fun c => c.cx != 0 && cond c.flags) disp

/-- LOOP (R670). -/
def loopOp (disp : Byte) : EU Unit := loopWhile (fun _ => true) disp

/-- LOOPE (R671). -/
def loopeOp (disp : Byte) : EU Unit := loopWhile (fun f => f.zf) disp

/-- LOOPNE (R672). -/
def loopneOp (disp : Byte) : EU Unit := loopWhile (fun f => !f.zf) disp

/-- JCXZ (R673). -/
def jcxzOp (disp : Byte) : EU Unit := branchIf (fun c => c.cx == 0) disp

/-- INT n (R680). -/
def intOp (vector : Byte) : EU Unit := enterAtIp vector

/-- INT3 (R681). -/
def int3Op : EU Unit := enterAtIp 3

/-- INTO (R682). -/
def intoOp : EU Unit := do
  let c ← readS State.cpu
  if c.flags.ovf then enterAtIp 4 else pure ()

/-- IRET (R683). -/
def iretOp : EU Unit := interruptReturn

/-- 70 cb: JO Jb (R665). -/
def execJo (disp : Byte) (s : State) : Result :=
  complete (jccOp .jo disp) s

/-- 71 cb: JNO Jb (R665). -/
def execJno (disp : Byte) (s : State) : Result :=
  complete (jccOp .jno disp) s

/-- 72 cb: JB Jb (R665). -/
def execJb (disp : Byte) (s : State) : Result :=
  complete (jccOp .jb disp) s

/-- 73 cb: JNB Jb (R665). -/
def execJnb (disp : Byte) (s : State) : Result :=
  complete (jccOp .jnb disp) s

/-- 74 cb: JZ Jb (R665). -/
def execJz (disp : Byte) (s : State) : Result :=
  complete (jccOp .jz disp) s

/-- 75 cb: JNZ Jb (R665). -/
def execJnz (disp : Byte) (s : State) : Result :=
  complete (jccOp .jnz disp) s

/-- 76 cb: JBE Jb (R665). -/
def execJbe (disp : Byte) (s : State) : Result :=
  complete (jccOp .jbe disp) s

/-- 77 cb: JA Jb (R665). -/
def execJa (disp : Byte) (s : State) : Result :=
  complete (jccOp .ja disp) s

/-- 78 cb: JS Jb (R665). -/
def execJs (disp : Byte) (s : State) : Result :=
  complete (jccOp .js disp) s

/-- 79 cb: JNS Jb (R665). -/
def execJns (disp : Byte) (s : State) : Result :=
  complete (jccOp .jns disp) s

/-- 7A cb: JP Jb (R665). -/
def execJp (disp : Byte) (s : State) : Result :=
  complete (jccOp .jp disp) s

/-- 7B cb: JNP Jb (R665). -/
def execJnp (disp : Byte) (s : State) : Result :=
  complete (jccOp .jnp disp) s

/-- 7C cb: JL Jb (R665). -/
def execJl (disp : Byte) (s : State) : Result :=
  complete (jccOp .jl disp) s

/-- 7D cb: JGE Jb (R665). -/
def execJge (disp : Byte) (s : State) : Result :=
  complete (jccOp .jge disp) s

/-- 7E cb: JLE Jb (R665). -/
def execJle (disp : Byte) (s : State) : Result :=
  complete (jccOp .jle disp) s

/-- 7F cb: JG Jb (R665). -/
def execJg (disp : Byte) (s : State) : Result :=
  complete (jccOp .jg disp) s

/-- 60 cb: JO Jb, undocumented (R240 U1). -/
def execJoAlias (disp : Byte) (s : State) : Result :=
  ifAdmitted .u1 (complete (jccOp .jo disp)) s

/-- 61 cb: JNO Jb, undocumented (R240 U1). -/
def execJnoAlias (disp : Byte) (s : State) : Result :=
  ifAdmitted .u1 (complete (jccOp .jno disp)) s

/-- 62 cb: JB Jb, undocumented (R240 U1). -/
def execJbAlias (disp : Byte) (s : State) : Result :=
  ifAdmitted .u1 (complete (jccOp .jb disp)) s

/-- 63 cb: JNB Jb, undocumented (R240 U1). -/
def execJnbAlias (disp : Byte) (s : State) : Result :=
  ifAdmitted .u1 (complete (jccOp .jnb disp)) s

/-- 64 cb: JZ Jb, undocumented (R240 U1). -/
def execJzAlias (disp : Byte) (s : State) : Result :=
  ifAdmitted .u1 (complete (jccOp .jz disp)) s

/-- 65 cb: JNZ Jb, undocumented (R240 U1). -/
def execJnzAlias (disp : Byte) (s : State) : Result :=
  ifAdmitted .u1 (complete (jccOp .jnz disp)) s

/-- 66 cb: JBE Jb, undocumented (R240 U1). -/
def execJbeAlias (disp : Byte) (s : State) : Result :=
  ifAdmitted .u1 (complete (jccOp .jbe disp)) s

/-- 67 cb: JA Jb, undocumented (R240 U1). -/
def execJaAlias (disp : Byte) (s : State) : Result :=
  ifAdmitted .u1 (complete (jccOp .ja disp)) s

/-- 68 cb: JS Jb, undocumented (R240 U1). -/
def execJsAlias (disp : Byte) (s : State) : Result :=
  ifAdmitted .u1 (complete (jccOp .js disp)) s

/-- 69 cb: JNS Jb, undocumented (R240 U1). -/
def execJnsAlias (disp : Byte) (s : State) : Result :=
  ifAdmitted .u1 (complete (jccOp .jns disp)) s

/-- 6A cb: JP Jb, undocumented (R240 U1). -/
def execJpAlias (disp : Byte) (s : State) : Result :=
  ifAdmitted .u1 (complete (jccOp .jp disp)) s

/-- 6B cb: JNP Jb, undocumented (R240 U1). -/
def execJnpAlias (disp : Byte) (s : State) : Result :=
  ifAdmitted .u1 (complete (jccOp .jnp disp)) s

/-- 6C cb: JL Jb, undocumented (R240 U1). -/
def execJlAlias (disp : Byte) (s : State) : Result :=
  ifAdmitted .u1 (complete (jccOp .jl disp)) s

/-- 6D cb: JGE Jb, undocumented (R240 U1). -/
def execJgeAlias (disp : Byte) (s : State) : Result :=
  ifAdmitted .u1 (complete (jccOp .jge disp)) s

/-- 6E cb: JLE Jb, undocumented (R240 U1). -/
def execJleAlias (disp : Byte) (s : State) : Result :=
  ifAdmitted .u1 (complete (jccOp .jle disp)) s

/-- 6F cb: JG Jb, undocumented (R240 U1). -/
def execJgAlias (disp : Byte) (s : State) : Result :=
  ifAdmitted .u1 (complete (jccOp .jg disp)) s

/-- EB cb: JMP short (R650). -/
def execJmpJb (disp : Byte) (s : State) : Result :=
  complete (jmpJbOp disp) s

/-- E9 cw: JMP near (R650). -/
def execJmpJw (disp : Word) (s : State) : Result :=
  complete (jmpJwOp disp) s

/-- FF /4: JMP near indirect (R651). -/
def execJmpEw (target : Rm Reg16) (s : State) : Result :=
  complete (jmpEwOp target) s

/-- EA cw cw: JMP far direct (R652). -/
def execJmpAp (off : Word) (sel : Word) (s : State) : Result :=
  complete (jmpApOp off sel) s

/-- FF /5 with mod not 11: JMP far indirect (R653). -/
def execJmpMp (ptr : MemOp) (s : State) : Result :=
  complete (jmpMpOp ptr) s

/-- FF /5 with mod 11, undocumented without a meaning (R240 U9). -/
def execJmpFarReg (_e : Reg16) (s : State) : Result :=
  decodeFault s

/-- E8 cw: CALL near relative (R655). -/
def execCallJw (disp : Word) (s : State) : Result :=
  complete (callJwOp disp) s

/-- FF /2: CALL near indirect (R656). -/
def execCallEw (target : Rm Reg16) (s : State) : Result :=
  complete (callEwOp target) s

/-- 9A cw cw: CALL far direct (R657). -/
def execCallAp (off : Word) (sel : Word) (s : State) : Result :=
  complete (callApOp off sel) s

/-- FF /3 with mod not 11: CALL far indirect (R658). -/
def execCallMp (ptr : MemOp) (s : State) : Result :=
  complete (callMpOp ptr) s

/-- FF /3 with mod 11, undocumented without a meaning (R240 U9). -/
def execCallFarReg (_e : Reg16) (s : State) : Result :=
  decodeFault s

/-- C2 iw: RET Iw (R661). -/
def execRetIw (release : Word) (s : State) : Result :=
  complete (retIwOp release) s

/-- C0 iw: RET Iw, undocumented (R240 U4). -/
def execRetIwAlias (release : Word) (s : State) : Result :=
  ifAdmitted .u4 (complete (retIwOp release)) s

/-- CA iw: RETF Iw (R663). -/
def execRetfIw (release : Word) (s : State) : Result :=
  complete (retfIwOp release) s

/-- C8 iw: RETF Iw, undocumented (R240 U4). -/
def execRetfIwAlias (release : Word) (s : State) : Result :=
  ifAdmitted .u4 (complete (retfIwOp release)) s

/-- E0 cb: LOOPNE Jb (R672). -/
def execLoopne (disp : Byte) (s : State) : Result :=
  complete (loopneOp disp) s

/-- E1 cb: LOOPE Jb (R671). -/
def execLoope (disp : Byte) (s : State) : Result :=
  complete (loopeOp disp) s

/-- E2 cb: LOOP Jb (R670). -/
def execLoop (disp : Byte) (s : State) : Result :=
  complete (loopOp disp) s

/-- E3 cb: JCXZ Jb (R673). -/
def execJcxz (disp : Byte) (s : State) : Result :=
  complete (jcxzOp disp) s

/-- CD ib: INT Ib (R680). -/
def execInt (vector : Byte) (s : State) : Result :=
  complete (intOp vector) s

/-- C3: RET (R660). -/
def execRet (s : State) : Result :=
  complete retOp s

/-- C1: RET, undocumented (R240 U4). -/
def execRetAlias (s : State) : Result :=
  ifAdmitted .u4 (complete retOp) s

/-- CB: RETF (R662). -/
def execRetf (s : State) : Result :=
  complete retfOp s

/-- C9: RETF, undocumented (R240 U4). -/
def execRetfAlias (s : State) : Result :=
  ifAdmitted .u4 (complete retfOp) s

/-- CC: INT3 (R681). -/
def execInt3 (s : State) : Result :=
  complete int3Op s

/-- CE: INTO (R682). -/
def execInto (s : State) : Result :=
  complete intoOp s

/-- CF: IRET (R683). -/
def execIret (s : State) : Result :=
  complete iretOp s

end Sys2Proof.Machine
end

