-- ==== Sys2Proof/Machine/DataTransfer.lean ====
section
/-! DEFINITION. The data transfer instructions (40_data_transfer.md R300 to R321): shared operations, then
one meaning per constructor. -/

namespace Sys2Proof.Machine

/-- MOV Eb,Gb (R300). -/
def movEbGbOp (dst : Rm Reg8) (src : Reg8) : EU Unit := do
  let p ← resolve dst
  let v ← getReg8 src
  writePlace8 p v

/-- MOV Ew,Gw (R300). -/
def movEwGwOp (dst : Rm Reg16) (src : Reg16) : EU Unit := do
  let p ← resolve dst
  let v ← getReg16 src
  writePlace16 p v

/-- MOV Gb,Eb (R300). -/
def movGbEbOp (dst : Reg8) (src : Rm Reg8) : EU Unit := do
  let p ← resolve src
  let v ← readPlace8 p
  putReg8 dst v

/-- MOV Gw,Ew (R300). -/
def movGwEwOp (dst : Reg16) (src : Rm Reg16) : EU Unit := do
  let p ← resolve src
  let v ← readPlace16 p
  putReg16 dst v

/-- MOV Eb,Ib (R300). -/
def movEbIbOp (dst : Rm Reg8) (imm : Byte) : EU Unit := do
  let p ← resolve dst
  writePlace8 p imm

/-- MOV Ew,Iw (R300). -/
def movEwIwOp (dst : Rm Reg16) (imm : Word) : EU Unit := do
  let p ← resolve dst
  writePlace16 p imm

/-- MOV r8,Ib (R300). -/
def movR8IbOp (dst : Reg8) (imm : Byte) : EU Unit := putReg8 dst imm

/-- MOV r16,Iw (R300). -/
def movR16IwOp (dst : Reg16) (imm : Word) : EU Unit := putReg16 dst imm

/-- MOV AL,Ob (R300). -/
def movAlObOp (off : Word) : EU Unit := do
  let seg ← readS fun s => segValue s .ds
  let v ← memRead8 seg off
  putReg8 .al v

/-- MOV AX,Ow (R300). -/
def movAxOwOp (off : Word) : EU Unit := do
  let seg ← readS fun s => segValue s .ds
  let v ← memRead16 seg off
  putReg16 .ax v

/-- MOV Ob,AL (R300). -/
def movObAlOp (off : Word) : EU Unit := do
  let seg ← readS fun s => segValue s .ds
  let v ← getReg8 .al
  memWrite8 seg off v

/-- MOV Ow,AX (R300). -/
def movOwAxOp (off : Word) : EU Unit := do
  let seg ← readS fun s => segValue s .ds
  let v ← getReg16 .ax
  memWrite16 seg off v

/-- MOV Ew,Sw (R301). -/
def movEwSwOp (dst : Rm Reg16) (src : SReg) : EU Unit := do
  let p ← resolve dst
  let v ← readS fun s => sreg s.cpu src
  writePlace16 p v

/-- MOV Sw,Ew; it sets the interrupt shadow (R302). -/
def movSwEwOp (dst : SReg) (src : Rm Reg16) : EU Unit := do
  let p ← resolve src
  let v ← readPlace16 p
  modifyCpu (setSreg dst v)
  setShadow

/-- PUSH r16; for SP, the value after the decrement (R303). -/
def pushR16Op (src : Reg16) : EU Unit := do
  let c ← readS State.cpu
  push (if src = .sp then c.sp - 2 else reg16 c src)

/-- PUSH Ew (R303). -/
def pushEwOp (src : Rm Reg16) : EU Unit :=
  match src with
  | .reg r => pushR16Op r
  | .mem m => do
    let p ← resolve (.mem m)
    let v ← readPlace16 p
    push v

/-- PUSH of a segment register (R303). -/
def pushSregOp (src : SReg) : EU Unit := do
  let v ← readS fun s => sreg s.cpu src
  push v

/-- POP r16 (R304). -/
def popR16Op (dst : Reg16) : EU Unit := do
  let v ← pop
  putReg16 dst v

/-- POP Ew; the place is computed before SP changes (R304). -/
def popEwOp (dst : Rm Reg16) : EU Unit := do
  let p ← resolve dst
  let v ← pop
  writePlace16 p v

/-- POP of a segment register; it sets the interrupt shadow (R304). -/
def popSregOp (dst : SReg) : EU Unit := do
  let v ← pop
  modifyCpu (setSreg dst v)
  setShadow

/-- XCHG Eb,Gb (R305). -/
def xchgEbGbOp (e : Rm Reg8) (g : Reg8) : EU Unit := do
  let p ← resolve e
  let a ← readPlace8 p
  let b ← getReg8 g
  writePlace8 p b
  putReg8 g a

/-- XCHG Ew,Gw (R305). -/
def xchgEwGwOp (e : Rm Reg16) (g : Reg16) : EU Unit := do
  let p ← resolve e
  let a ← readPlace16 p
  let b ← getReg16 g
  writePlace16 p b
  putReg16 g a

/-- XCHG AX,r16 (R305). -/
def xchgAxR16Op (r : Reg16) : EU Unit :=
  modifyCpu fun c => setReg16 r c.ax (setReg16 .ax (reg16 c r) c)

/-- XLAT (R306). -/
def xlatOp : EU Unit := do
  let s ← readS id
  let v ← memRead8 (segValue s .ds) (s.cpu.bx + zext16 (loByte s.cpu.ax))
  putReg8 .al v

/-- LEA: the offset alone, no memory access (R307). -/
def leaOp (dst : Reg16) (src : MemOp) : EU Unit := do
  let a ← readS fun s => effAddr s.cpu src
  putReg16 dst a

/-- LDS and LES: a far pointer to a register and a segment register (R308, R309). -/
def loadFarPointer (sel : SReg) (dst : Reg16) (src : MemOp) : EU Unit := do
  let p ← readS fun s => memPlace s src
  let v ← readFarPointer p.1 p.2
  putReg16 dst v.1
  modifyCpu (setSreg sel v.2)

/-- LDS (R308). -/
def ldsOp (dst : Reg16) (src : MemOp) : EU Unit := loadFarPointer .ds dst src

/-- LES (R309). -/
def lesOp (dst : Reg16) (src : MemOp) : EU Unit := loadFarPointer .es dst src

/-- LAHF (R310). -/
def lahfOp : EU Unit := modifyCpu fun c => setReg8 .ah (loByte (flagsWord c.flags)) c

/-- The flags after SAHF of the byte `v` (R311). -/
def storeFlagsByte (v : Byte) (f : Flags) : Flags :=
  { f with
    sf := v.getLsbD 7, zf := v.getLsbD 6, af := v.getLsbD 4, pf := v.getLsbD 2, cf := v.getLsbD 0 }

/-- SAHF (R311). -/
def sahfOp : EU Unit := modifyCpu fun c => { c with flags := storeFlagsByte (hiByte c.ax) c.flags }

/-- PUSHF (R312). -/
def pushfOp : EU Unit := do
  let c ← readS State.cpu
  push (flagsWord c.flags)

/-- POPF (R313). -/
def popfOp : EU Unit := do
  let v ← pop
  modifyFlags fun _ => setFlagsWord v

/-- IN AL from a port (R320). -/
def inAl (p : Word) : EU Unit := do
  let v ← portRead8 p
  putReg8 .al v

/-- IN AX from a port and the next (R320). -/
def inAx (p : Word) : EU Unit := do
  let v ← portRead16 p
  putReg16 .ax v

/-- OUT of AL to a port (R321). -/
def outAl (p : Word) : EU Unit := do
  let v ← getReg8 .al
  portWrite8 p v

/-- OUT of AX to a port and the next (R321). -/
def outAx (p : Word) : EU Unit := do
  let v ← getReg16 .ax
  portWrite16 p v

/-- IN AL,Ib (R320). -/
def inAlIbOp (port : Byte) : EU Unit := inAl (zext16 port)

/-- IN AX,Ib (R320). -/
def inAxIbOp (port : Byte) : EU Unit := inAx (zext16 port)

/-- IN AL,DX (R320). -/
def inAlDxOp : EU Unit := do
  let p ← getReg16 .dx
  inAl p

/-- IN AX,DX (R320). -/
def inAxDxOp : EU Unit := do
  let p ← getReg16 .dx
  inAx p

/-- OUT Ib,AL (R321). -/
def outIbAlOp (port : Byte) : EU Unit := outAl (zext16 port)

/-- OUT Ib,AX (R321). -/
def outIbAxOp (port : Byte) : EU Unit := outAx (zext16 port)

/-- OUT DX,AL (R321). -/
def outDxAlOp : EU Unit := do
  let p ← getReg16 .dx
  outAl p

/-- OUT DX,AX (R321). -/
def outDxAxOp : EU Unit := do
  let p ← getReg16 .dx
  outAx p

/-- 06, 0E, 16, 1E: PUSH of ES, CS, SS or DS (R303). -/
def execPushSreg (src : SReg) (s : State) : Result :=
  complete (pushSregOp src) s

/-- 50+r: PUSH r16 (R303). -/
def execPushR16 (src : Reg16) (s : State) : Result :=
  complete (pushR16Op src) s

/-- FF /6: PUSH Ew (R303). -/
def execPushEw (src : Rm Reg16) (s : State) : Result :=
  complete (pushEwOp src) s

/-- FF /7: PUSH Ew, undocumented (R240 U13). -/
def execPushEwAlias (src : Rm Reg16) (s : State) : Result :=
  ifAdmitted .u13 (complete (pushEwOp src)) s

/-- 07, 17, 1F: POP of ES, SS or DS (R304). -/
def execPopSreg (dst : SReg) (s : State) : Result :=
  complete (popSregOp dst) s

/-- 58+r: POP r16 (R304). -/
def execPopR16 (dst : Reg16) (s : State) : Result :=
  complete (popR16Op dst) s

/-- 8F /0: POP Ew (R304). -/
def execPopEw (dst : Rm Reg16) (s : State) : Result :=
  complete (popEwOp dst) s

/-- 8F /1 to /7: POP Ew, undocumented (R240 U10). -/
def execPopEwAlias (_sel : Bits3) (dst : Rm Reg16) (s : State) : Result :=
  ifAdmitted .u10 (complete (popEwOp dst)) s

/-- 86 /r: XCHG Eb,Gb (R305). -/
def execXchgEbGb (e : Rm Reg8) (g : Reg8) (s : State) : Result :=
  complete (xchgEbGbOp e g) s

/-- 87 /r: XCHG Ew,Gw (R305). -/
def execXchgEwGw (e : Rm Reg16) (g : Reg16) (s : State) : Result :=
  complete (xchgEwGwOp e g) s

/-- 90+r, r from 1 to 7: XCHG AX,r16 (R305). -/
def execXchgAxR16 (r : Reg16) (s : State) : Result :=
  complete (xchgAxR16Op r) s

/-- 88 /r: MOV Eb,Gb (R300). -/
def execMovEbGb (dst : Rm Reg8) (src : Reg8) (s : State) : Result :=
  complete (movEbGbOp dst src) s

/-- 89 /r: MOV Ew,Gw (R300). -/
def execMovEwGw (dst : Rm Reg16) (src : Reg16) (s : State) : Result :=
  complete (movEwGwOp dst src) s

/-- 8A /r: MOV Gb,Eb (R300). -/
def execMovGbEb (dst : Reg8) (src : Rm Reg8) (s : State) : Result :=
  complete (movGbEbOp dst src) s

/-- 8B /r: MOV Gw,Ew (R300). -/
def execMovGwEw (dst : Reg16) (src : Rm Reg16) (s : State) : Result :=
  complete (movGwEwOp dst src) s

/-- 8C /0 to /3: MOV Ew,Sw (R301). -/
def execMovEwSw (dst : Rm Reg16) (src : SReg) (s : State) : Result :=
  complete (movEwSwOp dst src) s

/-- 8C /4 to /7: MOV Ew,Sw, undocumented (R240 U5). -/
def execMovEwSwAlias (dst : Rm Reg16) (src : SReg) (s : State) : Result :=
  ifAdmitted .u5 (complete (movEwSwOp dst src)) s

/-- 8E /0, /2, /3: MOV Sw,Ew (R302). -/
def execMovSwEw (dst : SReg) (src : Rm Reg16) (s : State) : Result :=
  complete (movSwEwOp dst src) s

/-- 8E /4, /6, /7: MOV Sw,Ew, undocumented (R240 U6). -/
def execMovSwEwAlias (dst : SReg) (src : Rm Reg16) (s : State) : Result :=
  ifAdmitted .u6 (complete (movSwEwOp dst src)) s

/-- 8E /1 and, with `hi`, /5: MOV CS,Ew, undocumented without a meaning (R240 U7). -/
def execMovCsEw (_hi : Bool) (_mode : Bits2) (_rm : Bits3) (s : State) : Result :=
  decodeFault s

/-- A0 ow: MOV AL,Ob (R300). -/
def execMovAlOb (off : Word) (s : State) : Result :=
  complete (movAlObOp off) s

/-- A1 ow: MOV AX,Ow (R300). -/
def execMovAxOw (off : Word) (s : State) : Result :=
  complete (movAxOwOp off) s

/-- A2 ow: MOV Ob,AL (R300). -/
def execMovObAl (off : Word) (s : State) : Result :=
  complete (movObAlOp off) s

/-- A3 ow: MOV Ow,AX (R300). -/
def execMovOwAx (off : Word) (s : State) : Result :=
  complete (movOwAxOp off) s

/-- B0+r ib: MOV r8,Ib (R300). -/
def execMovR8Ib (dst : Reg8) (imm : Byte) (s : State) : Result :=
  complete (movR8IbOp dst imm) s

/-- B8+r iw: MOV r16,Iw (R300). -/
def execMovR16Iw (dst : Reg16) (imm : Word) (s : State) : Result :=
  complete (movR16IwOp dst imm) s

/-- C6 /0 ib: MOV Eb,Ib (R300). -/
def execMovEbIb (dst : Rm Reg8) (imm : Byte) (s : State) : Result :=
  complete (movEbIbOp dst imm) s

/-- C7 /0 iw: MOV Ew,Iw (R300). -/
def execMovEwIw (dst : Rm Reg16) (imm : Word) (s : State) : Result :=
  complete (movEwIwOp dst imm) s

/-- C6 /1 to /7 ib: MOV Eb,Ib, undocumented (R240 U10). -/
def execMovEbIbAlias (_sel : Bits3) (dst : Rm Reg8) (imm : Byte) (s : State) : Result :=
  ifAdmitted .u10 (complete (movEbIbOp dst imm)) s

/-- C7 /1 to /7 iw: MOV Ew,Iw, undocumented (R240 U10). -/
def execMovEwIwAlias (_sel : Bits3) (dst : Rm Reg16) (imm : Word) (s : State) : Result :=
  ifAdmitted .u10 (complete (movEwIwOp dst imm)) s

/-- 8D /r with mod not 11: LEA Gw,M (R307). -/
def execLea (dst : Reg16) (src : MemOp) (s : State) : Result :=
  complete (leaOp dst src) s

/-- 8D with mod 11, undocumented without a meaning (R240 U8). -/
def execLeaReg (_g : Reg16) (_e : Reg16) (s : State) : Result :=
  decodeFault s

/-- C4 /r with mod not 11: LES Gw,Mp (R309). -/
def execLes (dst : Reg16) (src : MemOp) (s : State) : Result :=
  complete (lesOp dst src) s

/-- C4 with mod 11, undocumented without a meaning (R240 U8). -/
def execLesReg (_g : Reg16) (_e : Reg16) (s : State) : Result :=
  decodeFault s

/-- C5 /r with mod not 11: LDS Gw,Mp (R308). -/
def execLds (dst : Reg16) (src : MemOp) (s : State) : Result :=
  complete (ldsOp dst src) s

/-- C5 with mod 11, undocumented without a meaning (R240 U8). -/
def execLdsReg (_g : Reg16) (_e : Reg16) (s : State) : Result :=
  decodeFault s

/-- E4 ib: IN AL,Ib (R320). -/
def execInAlIb (port : Byte) (s : State) : Result :=
  complete (inAlIbOp port) s

/-- E5 ib: IN AX,Ib (R320). -/
def execInAxIb (port : Byte) (s : State) : Result :=
  complete (inAxIbOp port) s

/-- E6 ib: OUT Ib,AL (R321). -/
def execOutIbAl (port : Byte) (s : State) : Result :=
  complete (outIbAlOp port) s

/-- E7 ib: OUT Ib,AX (R321). -/
def execOutIbAx (port : Byte) (s : State) : Result :=
  complete (outIbAxOp port) s

/-- 0F: POP CS, undocumented without a meaning (R240 U7). -/
def execPopCs (s : State) : Result :=
  decodeFault s

/-- D7: XLAT (R306). -/
def execXlat (s : State) : Result :=
  complete xlatOp s

/-- 9C: PUSHF (R312). -/
def execPushf (s : State) : Result :=
  complete pushfOp s

/-- 9D: POPF (R313). -/
def execPopf (s : State) : Result :=
  complete popfOp s

/-- 9E: SAHF (R311). -/
def execSahf (s : State) : Result :=
  complete sahfOp s

/-- 9F: LAHF (R310). -/
def execLahf (s : State) : Result :=
  complete lahfOp s

/-- EC: IN AL,DX (R320). -/
def execInAlDx (s : State) : Result :=
  complete inAlDxOp s

/-- ED: IN AX,DX (R320). -/
def execInAxDx (s : State) : Result :=
  complete inAxDxOp s

/-- EE: OUT DX,AL (R321). -/
def execOutDxAl (s : State) : Result :=
  complete outDxAlOp s

/-- EF: OUT DX,AX (R321). -/
def execOutDxAx (s : State) : Result :=
  complete outDxAxOp s

end Sys2Proof.Machine
end

