-- ==== Sys2Proof/Machine/Logic.lean ====
section
/-! DEFINITION. The logical instructions (42_logic_shift.md R500 to R504): shared operations, then one
meaning per constructor. -/

namespace Sys2Proof.Machine

/-- The flags of TEST: those of AND, with no result stored (R503). -/
def testFlags {w : Nat} (a b : BitVec w) : EU Unit := do
  let _ ← aluCompute .and a b
  pure ()

/-- TEST Eb,Gb (R503). -/
def testEbGbOp (e : Rm Reg8) (g : Reg8) : EU Unit := do
  let p ← resolve e
  let a ← readPlace8 p
  let b ← getReg8 g
  testFlags a b

/-- TEST Ew,Gw (R503). -/
def testEwGwOp (e : Rm Reg16) (g : Reg16) : EU Unit := do
  let p ← resolve e
  let a ← readPlace16 p
  let b ← getReg16 g
  testFlags a b

/-- TEST Eb,Ib (R503). -/
def testEbIbOp (e : Rm Reg8) (imm : Byte) : EU Unit := do
  let p ← resolve e
  let a ← readPlace8 p
  testFlags a imm

/-- TEST Ew,Iw (R503). -/
def testEwIwOp (e : Rm Reg16) (imm : Word) : EU Unit := do
  let p ← resolve e
  let a ← readPlace16 p
  testFlags a imm

/-- TEST AL,Ib (R503). -/
def testAlIbOp (imm : Byte) : EU Unit := testEbIbOp (.reg .al) imm

/-- TEST AX,Iw (R503). -/
def testAxIwOp (imm : Word) : EU Unit := testEwIwOp (.reg .ax) imm

/-- NOT Eb; no flag changes (R504). -/
def notEbOp (dst : Rm Reg8) : EU Unit := do
  let p ← resolve dst
  let a ← readPlace8 p
  writePlace8 p (~~~ a)

/-- NOT Ew; no flag changes (R504). -/
def notEwOp (dst : Rm Reg16) : EU Unit := do
  let p ← resolve dst
  let a ← readPlace16 p
  writePlace16 p (~~~ a)

/-- 08 /r: OR Eb,Gb (R501). -/
def execOrEbGb (dst : Rm Reg8) (src : Reg8) (s : State) : Result :=
  complete (aluEbGb .or dst src) s

/-- 09 /r: OR Ew,Gw (R501). -/
def execOrEwGw (dst : Rm Reg16) (src : Reg16) (s : State) : Result :=
  complete (aluEwGw .or dst src) s

/-- 0A /r: OR Gb,Eb (R501). -/
def execOrGbEb (dst : Reg8) (src : Rm Reg8) (s : State) : Result :=
  complete (aluGbEb .or dst src) s

/-- 0B /r: OR Gw,Ew (R501). -/
def execOrGwEw (dst : Reg16) (src : Rm Reg16) (s : State) : Result :=
  complete (aluGwEw .or dst src) s

/-- 0C ib: OR AL,Ib (R501). -/
def execOrAlIb (imm : Byte) (s : State) : Result :=
  complete (aluAlIb .or imm) s

/-- 0D iw: OR AX,Iw (R501). -/
def execOrAxIw (imm : Word) (s : State) : Result :=
  complete (aluAxIw .or imm) s

/-- 80 /1 ib: OR Eb,Ib (R501). -/
def execOrEbIb (dst : Rm Reg8) (imm : Byte) (s : State) : Result :=
  complete (aluEbIb .or dst imm) s

/-- 81 /1 iw: OR Ew,Iw (R501). -/
def execOrEwIw (dst : Rm Reg16) (imm : Word) (s : State) : Result :=
  complete (aluEwIw .or dst imm) s

/-- 83 /1 ib: OR Ew,Ibs, undocumented (R240 U3). -/
def execOrEwIbs (dst : Rm Reg16) (imm : Byte) (s : State) : Result :=
  ifAdmitted .u3 (complete (aluEwIbs .or dst imm)) s

/-- 82 /1 ib: OR Eb,Ib, undocumented (R240 U2). -/
def execOrEbIbAlias (dst : Rm Reg8) (imm : Byte) (s : State) : Result :=
  ifAdmitted .u2 (complete (aluEbIb .or dst imm)) s

/-- 20 /r: AND Eb,Gb (R500). -/
def execAndEbGb (dst : Rm Reg8) (src : Reg8) (s : State) : Result :=
  complete (aluEbGb .and dst src) s

/-- 21 /r: AND Ew,Gw (R500). -/
def execAndEwGw (dst : Rm Reg16) (src : Reg16) (s : State) : Result :=
  complete (aluEwGw .and dst src) s

/-- 22 /r: AND Gb,Eb (R500). -/
def execAndGbEb (dst : Reg8) (src : Rm Reg8) (s : State) : Result :=
  complete (aluGbEb .and dst src) s

/-- 23 /r: AND Gw,Ew (R500). -/
def execAndGwEw (dst : Reg16) (src : Rm Reg16) (s : State) : Result :=
  complete (aluGwEw .and dst src) s

/-- 24 ib: AND AL,Ib (R500). -/
def execAndAlIb (imm : Byte) (s : State) : Result :=
  complete (aluAlIb .and imm) s

/-- 25 iw: AND AX,Iw (R500). -/
def execAndAxIw (imm : Word) (s : State) : Result :=
  complete (aluAxIw .and imm) s

/-- 80 /4 ib: AND Eb,Ib (R500). -/
def execAndEbIb (dst : Rm Reg8) (imm : Byte) (s : State) : Result :=
  complete (aluEbIb .and dst imm) s

/-- 81 /4 iw: AND Ew,Iw (R500). -/
def execAndEwIw (dst : Rm Reg16) (imm : Word) (s : State) : Result :=
  complete (aluEwIw .and dst imm) s

/-- 83 /4 ib: AND Ew,Ibs, undocumented (R240 U3). -/
def execAndEwIbs (dst : Rm Reg16) (imm : Byte) (s : State) : Result :=
  ifAdmitted .u3 (complete (aluEwIbs .and dst imm)) s

/-- 82 /4 ib: AND Eb,Ib, undocumented (R240 U2). -/
def execAndEbIbAlias (dst : Rm Reg8) (imm : Byte) (s : State) : Result :=
  ifAdmitted .u2 (complete (aluEbIb .and dst imm)) s

/-- 30 /r: XOR Eb,Gb (R502). -/
def execXorEbGb (dst : Rm Reg8) (src : Reg8) (s : State) : Result :=
  complete (aluEbGb .xor dst src) s

/-- 31 /r: XOR Ew,Gw (R502). -/
def execXorEwGw (dst : Rm Reg16) (src : Reg16) (s : State) : Result :=
  complete (aluEwGw .xor dst src) s

/-- 32 /r: XOR Gb,Eb (R502). -/
def execXorGbEb (dst : Reg8) (src : Rm Reg8) (s : State) : Result :=
  complete (aluGbEb .xor dst src) s

/-- 33 /r: XOR Gw,Ew (R502). -/
def execXorGwEw (dst : Reg16) (src : Rm Reg16) (s : State) : Result :=
  complete (aluGwEw .xor dst src) s

/-- 34 ib: XOR AL,Ib (R502). -/
def execXorAlIb (imm : Byte) (s : State) : Result :=
  complete (aluAlIb .xor imm) s

/-- 35 iw: XOR AX,Iw (R502). -/
def execXorAxIw (imm : Word) (s : State) : Result :=
  complete (aluAxIw .xor imm) s

/-- 80 /6 ib: XOR Eb,Ib (R502). -/
def execXorEbIb (dst : Rm Reg8) (imm : Byte) (s : State) : Result :=
  complete (aluEbIb .xor dst imm) s

/-- 81 /6 iw: XOR Ew,Iw (R502). -/
def execXorEwIw (dst : Rm Reg16) (imm : Word) (s : State) : Result :=
  complete (aluEwIw .xor dst imm) s

/-- 83 /6 ib: XOR Ew,Ibs, undocumented (R240 U3). -/
def execXorEwIbs (dst : Rm Reg16) (imm : Byte) (s : State) : Result :=
  ifAdmitted .u3 (complete (aluEwIbs .xor dst imm)) s

/-- 82 /6 ib: XOR Eb,Ib, undocumented (R240 U2). -/
def execXorEbIbAlias (dst : Rm Reg8) (imm : Byte) (s : State) : Result :=
  ifAdmitted .u2 (complete (aluEbIb .xor dst imm)) s

/-- F6 /2: NOT Eb (R504). -/
def execNotEb (dst : Rm Reg8) (s : State) : Result :=
  complete (notEbOp dst) s

/-- F7 /2: NOT Ew (R504). -/
def execNotEw (dst : Rm Reg16) (s : State) : Result :=
  complete (notEwOp dst) s

/-- 84 /r: TEST Eb,Gb (R503). -/
def execTestEbGb (e : Rm Reg8) (g : Reg8) (s : State) : Result :=
  complete (testEbGbOp e g) s

/-- 85 /r: TEST Ew,Gw (R503). -/
def execTestEwGw (e : Rm Reg16) (g : Reg16) (s : State) : Result :=
  complete (testEwGwOp e g) s

/-- A8 ib: TEST AL,Ib (R503). -/
def execTestAlIb (imm : Byte) (s : State) : Result :=
  complete (testAlIbOp imm) s

/-- A9 iw: TEST AX,Iw (R503). -/
def execTestAxIw (imm : Word) (s : State) : Result :=
  complete (testAxIwOp imm) s

/-- F6 /0 ib: TEST Eb,Ib (R503). -/
def execTestEbIb (e : Rm Reg8) (imm : Byte) (s : State) : Result :=
  complete (testEbIbOp e imm) s

/-- F7 /0 iw: TEST Ew,Iw (R503). -/
def execTestEwIw (e : Rm Reg16) (imm : Word) (s : State) : Result :=
  complete (testEwIwOp e imm) s

/-- F6 /1 ib: TEST Eb,Ib, undocumented (R240 U11). -/
def execTestEbIbAlias (e : Rm Reg8) (imm : Byte) (s : State) : Result :=
  ifAdmitted .u11 (complete (testEbIbOp e imm)) s

/-- F7 /1 iw: TEST Ew,Iw, undocumented (R240 U11). -/
def execTestEwIwAlias (e : Rm Reg16) (imm : Word) (s : State) : Result :=
  ifAdmitted .u11 (complete (testEwIwOp e imm)) s

end Sys2Proof.Machine
end

