-- ==== Sys2Proof/Machine/Processor.lean ====
section
/-! DEFINITION. The flag and processor control instructions and the LOCK and segment-override prefixes
(45_processor_control.md R730 to R743): shared operations, then one meaning per constructor. -/

namespace Sys2Proof.Machine

/-- CLC (R730). -/
def clcOp : EU Unit := modifyFlags fun f => { f with cf := false }

/-- STC (R731). -/
def stcOp : EU Unit := modifyFlags fun f => { f with cf := true }

/-- CMC (R732). -/
def cmcOp : EU Unit := modifyFlags fun f => { f with cf := !f.cf }

/-- CLD (R733). -/
def cldOp : EU Unit := modifyFlags fun f => { f with df := false }

/-- STD (R734). -/
def stdOp : EU Unit := modifyFlags fun f => { f with df := true }

/-- CLI (R735). -/
def cliOp : EU Unit := modifyFlags fun f => { f with intf := false }

/-- STI; it sets the interrupt shadow (R736). -/
def stiOp : EU Unit := do
  modifyFlags fun f => { f with intf := true }
  setShadow

/-- HLT: a halt transaction, then the halt state (R737, R152). -/
def hltOp : EU Unit := do
  let _ ← busAccess ⟨.halt, .none, 0⟩
  modifyEu fun e => { e with halted := true }

/-- WAIT: it ends at once when TEST is asserted; otherwise the machine waits, and each further tick is a
step of its own (R738, R816). -/
def waitOp (s : State) : Result :=
  if s.env.test then runEU endInstr s else goOn (fun e => { e with waiting := true }) s

/-- ESC: a memory operand is read and discarded (R739). -/
def escOp (_op _reg : Bits3) (e : Rm Reg16) : EU Unit :=
  match e with
  | .reg _ => pure ()
  | .mem m => do
    let p ← resolve (.mem m)
    let _ ← readPlace16 p
    pure ()

/-- NOP (R742). -/
def nopOp : EU Unit := pure ()

/-- SALC (R743). -/
def salcOp : EU Unit := modifyCpu fun c => setReg8 .al (if c.flags.cf then 0xFF#8 else 0) c

/-- LOCK: record it, and the next byte is decoded with it in force (R740). -/
def lockPrefix (s : State) : Result := goOn (fun e => { e with lock := true }) s

/-- A segment override: record it, and the next byte is decoded with it in force (R741). -/
def segPrefix (r : SReg) (s : State) : Result := goOn (fun e => { e with segOvr := some r }) s

/-- D8 /r to DF /r: ESC (R739). -/
def execEsc (op : Bits3) (reg : Bits3) (e : Rm Reg16) (s : State) : Result :=
  complete (escOp op reg e) s

/-- 26: the segment-override prefix ES: (R741). -/
def execEsPrefix (s : State) : Result :=
  segPrefix .es s

/-- 2E: the segment-override prefix CS: (R741). -/
def execCsPrefix (s : State) : Result :=
  segPrefix .cs s

/-- 36: the segment-override prefix SS: (R741). -/
def execSsPrefix (s : State) : Result :=
  segPrefix .ss s

/-- 3E: the segment-override prefix DS: (R741). -/
def execDsPrefix (s : State) : Result :=
  segPrefix .ds s

/-- F0: the LOCK prefix (R740). -/
def execLock (s : State) : Result :=
  lockPrefix s

/-- F1: the LOCK prefix, undocumented (R240 U12). -/
def execLockAlias (s : State) : Result :=
  ifAdmitted .u12 lockPrefix s

/-- F8: CLC (R730). -/
def execClc (s : State) : Result :=
  complete clcOp s

/-- F9: STC (R731). -/
def execStc (s : State) : Result :=
  complete stcOp s

/-- F5: CMC (R732). -/
def execCmc (s : State) : Result :=
  complete cmcOp s

/-- FC: CLD (R733). -/
def execCld (s : State) : Result :=
  complete cldOp s

/-- FD: STD (R734). -/
def execStd (s : State) : Result :=
  complete stdOp s

/-- FA: CLI (R735). -/
def execCli (s : State) : Result :=
  complete cliOp s

/-- FB: STI (R736). -/
def execSti (s : State) : Result :=
  complete stiOp s

/-- F4: HLT (R737). -/
def execHlt (s : State) : Result :=
  complete hltOp s

/-- 9B: WAIT (R738). -/
def execWait (s : State) : Result :=
  waitOp s

/-- 90: NOP (R742). -/
def execNop (s : State) : Result :=
  complete nopOp s

/-- D6: SALC, undocumented (R743, R240 U14). -/
def execSalc (s : State) : Result :=
  ifAdmitted .u14 (complete salcOp) s

end Sys2Proof.Machine
end

