-- ==== Sys2Proof/Machine/Shift.lean ====
section
/-! DEFINITION. The shifts and rotates (42_logic_shift.md R510 to R517) and the meaningless D0-D3 /6
(30_encoding.md R240 U17): the shared `Shift` of R510, then one meaning per constructor. -/

namespace Sys2Proof.Machine

/-- The flags after a shift or rotate by `n ≥ 1` of `x`, `f` being the flags before (R510). -/
def shiftFlags {w : Nat} (k : ShiftKind) (n : Nat) (x : BitVec w) (f : Flags) : EU Unit := do
  let ovf ← drawIf (decide (n ≠ 1))
  let af ← drawIf (isShift k)
  modifyFlags fun _ => (shiftResult k n x ovf af f).flags

/-- `Shift(kind, 8, n)`: the steps write CF, then the result is written, then the other flags (R510, R15). -/
def shift8 (k : ShiftKind) (n : Nat) (dst : Rm Reg8) : EU Unit := do
  let p ← resolve dst
  let x ← readPlace8 p
  let c ← readS State.cpu
  if n = 0 then pure ()
  else do
    modifyFlags fun f => { f with cf := (shiftSteps k n x c.flags.cf).2 }
    writePlace8 p (shiftSteps k n x c.flags.cf).1
    shiftFlags k n x c.flags

/-- `Shift(kind, 16, n)`, in the same order (R510, R15). -/
def shift16 (k : ShiftKind) (n : Nat) (dst : Rm Reg16) : EU Unit := do
  let p ← resolve dst
  let x ← readPlace16 p
  let c ← readS State.cpu
  if n = 0 then pure ()
  else do
    modifyFlags fun f => { f with cf := (shiftSteps k n x c.flags.cf).2 }
    writePlace16 p (shiftSteps k n x c.flags.cf).1
    shiftFlags k n x c.flags

/-- The count of D2 and D3: CL, from 0 to 255, not masked (R510). -/
def shiftCount : EU Nat := readS fun s => (loByte s.cpu.cx).toNat

/-- D0: Eb,1 (R510). -/
def shiftEb1 (k : ShiftKind) (dst : Rm Reg8) : EU Unit := shift8 k 1 dst

/-- D1: Ew,1 (R510). -/
def shiftEw1 (k : ShiftKind) (dst : Rm Reg16) : EU Unit := shift16 k 1 dst

/-- D2: Eb,CL (R510). -/
def shiftEbCl (k : ShiftKind) (dst : Rm Reg8) : EU Unit := do
  let n ← shiftCount
  shift8 k n dst

/-- D3: Ew,CL (R510). -/
def shiftEwCl (k : ShiftKind) (dst : Rm Reg16) : EU Unit := do
  let n ← shiftCount
  shift16 k n dst

/-- D0 /0: ROL Eb,1 (R511). -/
def execRolEb1 (dst : Rm Reg8) (s : State) : Result :=
  complete (shiftEb1 .rol dst) s

/-- D1 /0: ROL Ew,1 (R511). -/
def execRolEw1 (dst : Rm Reg16) (s : State) : Result :=
  complete (shiftEw1 .rol dst) s

/-- D2 /0: ROL Eb,CL (R511). -/
def execRolEbCl (dst : Rm Reg8) (s : State) : Result :=
  complete (shiftEbCl .rol dst) s

/-- D3 /0: ROL Ew,CL (R511). -/
def execRolEwCl (dst : Rm Reg16) (s : State) : Result :=
  complete (shiftEwCl .rol dst) s

/-- D0 /1: ROR Eb,1 (R512). -/
def execRorEb1 (dst : Rm Reg8) (s : State) : Result :=
  complete (shiftEb1 .ror dst) s

/-- D1 /1: ROR Ew,1 (R512). -/
def execRorEw1 (dst : Rm Reg16) (s : State) : Result :=
  complete (shiftEw1 .ror dst) s

/-- D2 /1: ROR Eb,CL (R512). -/
def execRorEbCl (dst : Rm Reg8) (s : State) : Result :=
  complete (shiftEbCl .ror dst) s

/-- D3 /1: ROR Ew,CL (R512). -/
def execRorEwCl (dst : Rm Reg16) (s : State) : Result :=
  complete (shiftEwCl .ror dst) s

/-- D0 /2: RCL Eb,1 (R513). -/
def execRclEb1 (dst : Rm Reg8) (s : State) : Result :=
  complete (shiftEb1 .rcl dst) s

/-- D1 /2: RCL Ew,1 (R513). -/
def execRclEw1 (dst : Rm Reg16) (s : State) : Result :=
  complete (shiftEw1 .rcl dst) s

/-- D2 /2: RCL Eb,CL (R513). -/
def execRclEbCl (dst : Rm Reg8) (s : State) : Result :=
  complete (shiftEbCl .rcl dst) s

/-- D3 /2: RCL Ew,CL (R513). -/
def execRclEwCl (dst : Rm Reg16) (s : State) : Result :=
  complete (shiftEwCl .rcl dst) s

/-- D0 /3: RCR Eb,1 (R514). -/
def execRcrEb1 (dst : Rm Reg8) (s : State) : Result :=
  complete (shiftEb1 .rcr dst) s

/-- D1 /3: RCR Ew,1 (R514). -/
def execRcrEw1 (dst : Rm Reg16) (s : State) : Result :=
  complete (shiftEw1 .rcr dst) s

/-- D2 /3: RCR Eb,CL (R514). -/
def execRcrEbCl (dst : Rm Reg8) (s : State) : Result :=
  complete (shiftEbCl .rcr dst) s

/-- D3 /3: RCR Ew,CL (R514). -/
def execRcrEwCl (dst : Rm Reg16) (s : State) : Result :=
  complete (shiftEwCl .rcr dst) s

/-- D0 /4: SHL Eb,1 (R515). -/
def execShlEb1 (dst : Rm Reg8) (s : State) : Result :=
  complete (shiftEb1 .shl dst) s

/-- D1 /4: SHL Ew,1 (R515). -/
def execShlEw1 (dst : Rm Reg16) (s : State) : Result :=
  complete (shiftEw1 .shl dst) s

/-- D2 /4: SHL Eb,CL (R515). -/
def execShlEbCl (dst : Rm Reg8) (s : State) : Result :=
  complete (shiftEbCl .shl dst) s

/-- D3 /4: SHL Ew,CL (R515). -/
def execShlEwCl (dst : Rm Reg16) (s : State) : Result :=
  complete (shiftEwCl .shl dst) s

/-- D0 /5: SHR Eb,1 (R516). -/
def execShrEb1 (dst : Rm Reg8) (s : State) : Result :=
  complete (shiftEb1 .shr dst) s

/-- D1 /5: SHR Ew,1 (R516). -/
def execShrEw1 (dst : Rm Reg16) (s : State) : Result :=
  complete (shiftEw1 .shr dst) s

/-- D2 /5: SHR Eb,CL (R516). -/
def execShrEbCl (dst : Rm Reg8) (s : State) : Result :=
  complete (shiftEbCl .shr dst) s

/-- D3 /5: SHR Ew,CL (R516). -/
def execShrEwCl (dst : Rm Reg16) (s : State) : Result :=
  complete (shiftEwCl .shr dst) s

/-- D0 /7: SAR Eb,1 (R517). -/
def execSarEb1 (dst : Rm Reg8) (s : State) : Result :=
  complete (shiftEb1 .sar dst) s

/-- D1 /7: SAR Ew,1 (R517). -/
def execSarEw1 (dst : Rm Reg16) (s : State) : Result :=
  complete (shiftEw1 .sar dst) s

/-- D2 /7: SAR Eb,CL (R517). -/
def execSarEbCl (dst : Rm Reg8) (s : State) : Result :=
  complete (shiftEbCl .sar dst) s

/-- D3 /7: SAR Ew,CL (R517). -/
def execSarEwCl (dst : Rm Reg16) (s : State) : Result :=
  complete (shiftEwCl .sar dst) s

/-- D0 to D3 /6, undocumented without a meaning (R240 U17). -/
def execShiftUndoc6 (_byCl : Bool) (_wide : Bool) (_mode : Bits2) (_rm : Bits3) (s : State) : Result :=
  decodeFault s

end Sys2Proof.Machine
end

