-- ==== Sys2Proof/Machine/Strings.lean ====
section
/-! DEFINITION. The string instructions and the repeat prefixes (43_string.md R600 to R608): one element of
each, the repeat machinery, then one meaning per constructor. -/

namespace Sys2Proof.Machine

/-- `delta` for elements of `n` bytes: forward when DF = 0, backward when DF = 1 (R600). -/
def stringDelta (df : Bool) (n : Word) : Word := if df then 0 - n else n

/-- `SI <- (SI + delta) mod 2^16` (R600). -/
def advanceSi (n : Word) : EU Unit :=
  modifyCpu fun c => { c with si := c.si + stringDelta c.flags.df n }

/-- `DI <- (DI + delta) mod 2^16` (R600). -/
def advanceDi (n : Word) : EU Unit :=
  modifyCpu fun c => { c with di := c.di + stringDelta c.flags.df n }

/-- The flags of `a - b`, with no result (R603, R604). -/
def compareFlags {w : Nat} (a b : BitVec w) : EU Unit := modifyFlags fun f => (subAlu a b false f).flags

/-- The source byte at `sseg:SI` (R600). -/
def sourceByte : EU Byte := do
  let s ← readS id
  memRead8 (segValue s .ds) s.cpu.si

/-- The source word at `sseg:SI` (R600). -/
def sourceWord : EU Word := do
  let s ← readS id
  memRead16 (segValue s .ds) s.cpu.si

/-- The destination byte at `ES:DI` (R600). -/
def destByte : EU Byte := do
  let c ← readS State.cpu
  memRead8 c.es c.di

/-- The destination word at `ES:DI` (R600). -/
def destWord : EU Word := do
  let c ← readS State.cpu
  memRead16 c.es c.di

/-- Store a byte at `ES:DI` (R600). -/
def storeDestByte (v : Byte) : EU Unit := do
  let c ← readS State.cpu
  memWrite8 c.es c.di v

/-- Store a word at `ES:DI` (R600). -/
def storeDestWord (v : Word) : EU Unit := do
  let c ← readS State.cpu
  memWrite16 c.es c.di v

/-- One element of MOVSB (R602). -/
def movsbElement : EU Unit := do
  let v ← sourceByte
  storeDestByte v
  advanceSi 1
  advanceDi 1

/-- One element of MOVSW (R602). -/
def movswElement : EU Unit := do
  let v ← sourceWord
  storeDestWord v
  advanceSi 2
  advanceDi 2

/-- One element of CMPSB (R603). -/
def cmpsbElement : EU Unit := do
  let a ← sourceByte
  let b ← destByte
  compareFlags a b
  advanceSi 1
  advanceDi 1

/-- One element of CMPSW (R603). -/
def cmpswElement : EU Unit := do
  let a ← sourceWord
  let b ← destWord
  compareFlags a b
  advanceSi 2
  advanceDi 2

/-- One element of SCASB (R604). -/
def scasbElement : EU Unit := do
  let b ← destByte
  let a ← getReg8 .al
  compareFlags a b
  advanceDi 1

/-- One element of SCASW (R604). -/
def scaswElement : EU Unit := do
  let b ← destWord
  let a ← getReg16 .ax
  compareFlags a b
  advanceDi 2

/-- One element of LODSB (R605). -/
def lodsbElement : EU Unit := do
  let v ← sourceByte
  putReg8 .al v
  advanceSi 1

/-- One element of LODSW (R605). -/
def lodswElement : EU Unit := do
  let v ← sourceWord
  putReg16 .ax v
  advanceSi 2

/-- One element of STOSB (R606). -/
def stosbElement : EU Unit := do
  let v ← getReg8 .al
  storeDestByte v
  advanceDi 1

/-- One element of STOSW (R606). -/
def stoswElement : EU Unit := do
  let v ← getReg16 .ax
  storeDestWord v
  advanceDi 2

/-- `ResumeIP()`: the first prefix, or the byte just before the opcode (R601). IP is the offset after the
opcode. -/
def resumeIp (s : State) : Word :=
  match s.params.repResume with
  | .firstPrefix => s.eu.start
  | .lastPrefix => s.cpu.ip - 2

/-- Whether a compare form stops after an element (R601, R607). -/
def compareStops (isCompare : Bool) (rep : Rep) (zf : Bool) : Bool :=
  match rep with
  | .none => false
  | .repe => isCompare && !zf
  | .repne => isCompare && zf

/-- The loop of R601, entered with `n` elements left to do. -/
def repLoop (element : EU Unit) (isCompare : Bool) : Nat → EU Unit
  | 0 => pure ()
  | n + 1 => do
    element
    modifyCpu fun c => { c with cx := c.cx - 1 }
    let s ← readS id
    if compareStops isCompare s.eu.rep s.cpu.flags.zf || s.cpu.cx == 0 then pure ()
    else if interruptPending s then modifyCpu fun c => { c with ip := resumeIp s }
    else repLoop element isCompare n

/-- A string instruction: one element, or `RepString` under a repeat prefix (R601). -/
def repString (element : EU Unit) (isCompare : Bool) : EU Unit := do
  let s ← readS id
  if s.eu.rep = .none then element else repLoop element isCompare s.cpu.cx.toNat

/-- A repeat prefix: record it, and the next byte is decoded with it in force (R607). -/
def repPrefix (r : Rep) (s : State) : Result := goOn (fun e => { e with rep := r }) s

/-- F2: the REPNE/REPNZ prefix (R607). -/
def execRepne (s : State) : Result :=
  repPrefix .repne s

/-- F3: the REP/REPE/REPZ prefix (R607). -/
def execRepe (s : State) : Result :=
  repPrefix .repe s

/-- A4: MOVSB (R602). -/
def execMovsb (s : State) : Result :=
  complete (repString movsbElement false) s

/-- A5: MOVSW (R602). -/
def execMovsw (s : State) : Result :=
  complete (repString movswElement false) s

/-- A6: CMPSB (R603). -/
def execCmpsb (s : State) : Result :=
  complete (repString cmpsbElement true) s

/-- A7: CMPSW (R603). -/
def execCmpsw (s : State) : Result :=
  complete (repString cmpswElement true) s

/-- AA: STOSB (R606). -/
def execStosb (s : State) : Result :=
  complete (repString stosbElement false) s

/-- AB: STOSW (R606). -/
def execStosw (s : State) : Result :=
  complete (repString stoswElement false) s

/-- AC: LODSB (R605). -/
def execLodsb (s : State) : Result :=
  complete (repString lodsbElement false) s

/-- AD: LODSW (R605). -/
def execLodsw (s : State) : Result :=
  complete (repString lodswElement false) s

/-- AE: SCASB (R604). -/
def execScasb (s : State) : Result :=
  complete (repString scasbElement true) s

/-- AF: SCASW (R604). -/
def execScasw (s : State) : Result :=
  complete (repString scaswElement true) s

end Sys2Proof.Machine
end

