-- ==== Sys2Proof/Machine/Dispatch.lean ====
section
/-! DEFINITION. The dispatch: one arm per constructor of `Instr`, each one direct call of its meaning. -/

namespace Sys2Proof.Machine

def exec (i : Instr) (s : State) : Host.Outcome State Fault Refusal :=
  match i with
  | .addEbGb dst src => Sys2Proof.Machine.execAddEbGb dst src s
  | .addEwGw dst src => Sys2Proof.Machine.execAddEwGw dst src s
  | .addGbEb dst src => Sys2Proof.Machine.execAddGbEb dst src s
  | .addGwEw dst src => Sys2Proof.Machine.execAddGwEw dst src s
  | .addAlIb imm => Sys2Proof.Machine.execAddAlIb imm s
  | .addAxIw imm => Sys2Proof.Machine.execAddAxIw imm s
  | .addEbIb dst imm => Sys2Proof.Machine.execAddEbIb dst imm s
  | .addEwIw dst imm => Sys2Proof.Machine.execAddEwIw dst imm s
  | .addEwIbs dst imm => Sys2Proof.Machine.execAddEwIbs dst imm s
  | .addEbIbAlias dst imm => Sys2Proof.Machine.execAddEbIbAlias dst imm s
  | .orEbGb dst src => Sys2Proof.Machine.execOrEbGb dst src s
  | .orEwGw dst src => Sys2Proof.Machine.execOrEwGw dst src s
  | .orGbEb dst src => Sys2Proof.Machine.execOrGbEb dst src s
  | .orGwEw dst src => Sys2Proof.Machine.execOrGwEw dst src s
  | .orAlIb imm => Sys2Proof.Machine.execOrAlIb imm s
  | .orAxIw imm => Sys2Proof.Machine.execOrAxIw imm s
  | .orEbIb dst imm => Sys2Proof.Machine.execOrEbIb dst imm s
  | .orEwIw dst imm => Sys2Proof.Machine.execOrEwIw dst imm s
  | .orEwIbs dst imm => Sys2Proof.Machine.execOrEwIbs dst imm s
  | .orEbIbAlias dst imm => Sys2Proof.Machine.execOrEbIbAlias dst imm s
  | .adcEbGb dst src => Sys2Proof.Machine.execAdcEbGb dst src s
  | .adcEwGw dst src => Sys2Proof.Machine.execAdcEwGw dst src s
  | .adcGbEb dst src => Sys2Proof.Machine.execAdcGbEb dst src s
  | .adcGwEw dst src => Sys2Proof.Machine.execAdcGwEw dst src s
  | .adcAlIb imm => Sys2Proof.Machine.execAdcAlIb imm s
  | .adcAxIw imm => Sys2Proof.Machine.execAdcAxIw imm s
  | .adcEbIb dst imm => Sys2Proof.Machine.execAdcEbIb dst imm s
  | .adcEwIw dst imm => Sys2Proof.Machine.execAdcEwIw dst imm s
  | .adcEwIbs dst imm => Sys2Proof.Machine.execAdcEwIbs dst imm s
  | .adcEbIbAlias dst imm => Sys2Proof.Machine.execAdcEbIbAlias dst imm s
  | .sbbEbGb dst src => Sys2Proof.Machine.execSbbEbGb dst src s
  | .sbbEwGw dst src => Sys2Proof.Machine.execSbbEwGw dst src s
  | .sbbGbEb dst src => Sys2Proof.Machine.execSbbGbEb dst src s
  | .sbbGwEw dst src => Sys2Proof.Machine.execSbbGwEw dst src s
  | .sbbAlIb imm => Sys2Proof.Machine.execSbbAlIb imm s
  | .sbbAxIw imm => Sys2Proof.Machine.execSbbAxIw imm s
  | .sbbEbIb dst imm => Sys2Proof.Machine.execSbbEbIb dst imm s
  | .sbbEwIw dst imm => Sys2Proof.Machine.execSbbEwIw dst imm s
  | .sbbEwIbs dst imm => Sys2Proof.Machine.execSbbEwIbs dst imm s
  | .sbbEbIbAlias dst imm => Sys2Proof.Machine.execSbbEbIbAlias dst imm s
  | .andEbGb dst src => Sys2Proof.Machine.execAndEbGb dst src s
  | .andEwGw dst src => Sys2Proof.Machine.execAndEwGw dst src s
  | .andGbEb dst src => Sys2Proof.Machine.execAndGbEb dst src s
  | .andGwEw dst src => Sys2Proof.Machine.execAndGwEw dst src s
  | .andAlIb imm => Sys2Proof.Machine.execAndAlIb imm s
  | .andAxIw imm => Sys2Proof.Machine.execAndAxIw imm s
  | .andEbIb dst imm => Sys2Proof.Machine.execAndEbIb dst imm s
  | .andEwIw dst imm => Sys2Proof.Machine.execAndEwIw dst imm s
  | .andEwIbs dst imm => Sys2Proof.Machine.execAndEwIbs dst imm s
  | .andEbIbAlias dst imm => Sys2Proof.Machine.execAndEbIbAlias dst imm s
  | .subEbGb dst src => Sys2Proof.Machine.execSubEbGb dst src s
  | .subEwGw dst src => Sys2Proof.Machine.execSubEwGw dst src s
  | .subGbEb dst src => Sys2Proof.Machine.execSubGbEb dst src s
  | .subGwEw dst src => Sys2Proof.Machine.execSubGwEw dst src s
  | .subAlIb imm => Sys2Proof.Machine.execSubAlIb imm s
  | .subAxIw imm => Sys2Proof.Machine.execSubAxIw imm s
  | .subEbIb dst imm => Sys2Proof.Machine.execSubEbIb dst imm s
  | .subEwIw dst imm => Sys2Proof.Machine.execSubEwIw dst imm s
  | .subEwIbs dst imm => Sys2Proof.Machine.execSubEwIbs dst imm s
  | .subEbIbAlias dst imm => Sys2Proof.Machine.execSubEbIbAlias dst imm s
  | .xorEbGb dst src => Sys2Proof.Machine.execXorEbGb dst src s
  | .xorEwGw dst src => Sys2Proof.Machine.execXorEwGw dst src s
  | .xorGbEb dst src => Sys2Proof.Machine.execXorGbEb dst src s
  | .xorGwEw dst src => Sys2Proof.Machine.execXorGwEw dst src s
  | .xorAlIb imm => Sys2Proof.Machine.execXorAlIb imm s
  | .xorAxIw imm => Sys2Proof.Machine.execXorAxIw imm s
  | .xorEbIb dst imm => Sys2Proof.Machine.execXorEbIb dst imm s
  | .xorEwIw dst imm => Sys2Proof.Machine.execXorEwIw dst imm s
  | .xorEwIbs dst imm => Sys2Proof.Machine.execXorEwIbs dst imm s
  | .xorEbIbAlias dst imm => Sys2Proof.Machine.execXorEbIbAlias dst imm s
  | .cmpEbGb dst src => Sys2Proof.Machine.execCmpEbGb dst src s
  | .cmpEwGw dst src => Sys2Proof.Machine.execCmpEwGw dst src s
  | .cmpGbEb dst src => Sys2Proof.Machine.execCmpGbEb dst src s
  | .cmpGwEw dst src => Sys2Proof.Machine.execCmpGwEw dst src s
  | .cmpAlIb imm => Sys2Proof.Machine.execCmpAlIb imm s
  | .cmpAxIw imm => Sys2Proof.Machine.execCmpAxIw imm s
  | .cmpEbIb dst imm => Sys2Proof.Machine.execCmpEbIb dst imm s
  | .cmpEwIw dst imm => Sys2Proof.Machine.execCmpEwIw dst imm s
  | .cmpEwIbs dst imm => Sys2Proof.Machine.execCmpEwIbs dst imm s
  | .cmpEbIbAlias dst imm => Sys2Proof.Machine.execCmpEbIbAlias dst imm s
  | .pushSreg src => Sys2Proof.Machine.execPushSreg src s
  | .pushR16 src => Sys2Proof.Machine.execPushR16 src s
  | .pushEw src => Sys2Proof.Machine.execPushEw src s
  | .pushEwAlias src => Sys2Proof.Machine.execPushEwAlias src s
  | .popSreg dst => Sys2Proof.Machine.execPopSreg dst s
  | .popR16 dst => Sys2Proof.Machine.execPopR16 dst s
  | .popEw dst => Sys2Proof.Machine.execPopEw dst s
  | .popEwAlias sel dst => Sys2Proof.Machine.execPopEwAlias sel dst s
  | .xchgEbGb e g => Sys2Proof.Machine.execXchgEbGb e g s
  | .xchgEwGw e g => Sys2Proof.Machine.execXchgEwGw e g s
  | .xchgAxR16 r => Sys2Proof.Machine.execXchgAxR16 r s
  | .movEbGb dst src => Sys2Proof.Machine.execMovEbGb dst src s
  | .movEwGw dst src => Sys2Proof.Machine.execMovEwGw dst src s
  | .movGbEb dst src => Sys2Proof.Machine.execMovGbEb dst src s
  | .movGwEw dst src => Sys2Proof.Machine.execMovGwEw dst src s
  | .movEwSw dst src => Sys2Proof.Machine.execMovEwSw dst src s
  | .movEwSwAlias dst src => Sys2Proof.Machine.execMovEwSwAlias dst src s
  | .movSwEw dst src => Sys2Proof.Machine.execMovSwEw dst src s
  | .movSwEwAlias dst src => Sys2Proof.Machine.execMovSwEwAlias dst src s
  | .movCsEw hi mode rm => Sys2Proof.Machine.execMovCsEw hi mode rm s
  | .movAlOb off => Sys2Proof.Machine.execMovAlOb off s
  | .movAxOw off => Sys2Proof.Machine.execMovAxOw off s
  | .movObAl off => Sys2Proof.Machine.execMovObAl off s
  | .movOwAx off => Sys2Proof.Machine.execMovOwAx off s
  | .movR8Ib dst imm => Sys2Proof.Machine.execMovR8Ib dst imm s
  | .movR16Iw dst imm => Sys2Proof.Machine.execMovR16Iw dst imm s
  | .movEbIb dst imm => Sys2Proof.Machine.execMovEbIb dst imm s
  | .movEwIw dst imm => Sys2Proof.Machine.execMovEwIw dst imm s
  | .movEbIbAlias sel dst imm => Sys2Proof.Machine.execMovEbIbAlias sel dst imm s
  | .movEwIwAlias sel dst imm => Sys2Proof.Machine.execMovEwIwAlias sel dst imm s
  | .lea dst src => Sys2Proof.Machine.execLea dst src s
  | .leaReg g e => Sys2Proof.Machine.execLeaReg g e s
  | .les dst src => Sys2Proof.Machine.execLes dst src s
  | .lesReg g e => Sys2Proof.Machine.execLesReg g e s
  | .lds dst src => Sys2Proof.Machine.execLds dst src s
  | .ldsReg g e => Sys2Proof.Machine.execLdsReg g e s
  | .inAlIb port => Sys2Proof.Machine.execInAlIb port s
  | .inAxIb port => Sys2Proof.Machine.execInAxIb port s
  | .outIbAl port => Sys2Proof.Machine.execOutIbAl port s
  | .outIbAx port => Sys2Proof.Machine.execOutIbAx port s
  | .incR16 dst => Sys2Proof.Machine.execIncR16 dst s
  | .incEb dst => Sys2Proof.Machine.execIncEb dst s
  | .incEw dst => Sys2Proof.Machine.execIncEw dst s
  | .decR16 dst => Sys2Proof.Machine.execDecR16 dst s
  | .decEb dst => Sys2Proof.Machine.execDecEb dst s
  | .decEw dst => Sys2Proof.Machine.execDecEw dst s
  | .notEb dst => Sys2Proof.Machine.execNotEb dst s
  | .notEw dst => Sys2Proof.Machine.execNotEw dst s
  | .negEb dst => Sys2Proof.Machine.execNegEb dst s
  | .negEw dst => Sys2Proof.Machine.execNegEw dst s
  | .mulEb src => Sys2Proof.Machine.execMulEb src s
  | .mulEw src => Sys2Proof.Machine.execMulEw src s
  | .imulEb src => Sys2Proof.Machine.execImulEb src s
  | .imulEw src => Sys2Proof.Machine.execImulEw src s
  | .divEb src => Sys2Proof.Machine.execDivEb src s
  | .divEw src => Sys2Proof.Machine.execDivEw src s
  | .idivEb src => Sys2Proof.Machine.execIdivEb src s
  | .idivEw src => Sys2Proof.Machine.execIdivEw src s
  | .aamBase base => Sys2Proof.Machine.execAamBase base s
  | .aadBase base => Sys2Proof.Machine.execAadBase base s
  | .testEbGb e g => Sys2Proof.Machine.execTestEbGb e g s
  | .testEwGw e g => Sys2Proof.Machine.execTestEwGw e g s
  | .testAlIb imm => Sys2Proof.Machine.execTestAlIb imm s
  | .testAxIw imm => Sys2Proof.Machine.execTestAxIw imm s
  | .testEbIb e imm => Sys2Proof.Machine.execTestEbIb e imm s
  | .testEwIw e imm => Sys2Proof.Machine.execTestEwIw e imm s
  | .testEbIbAlias e imm => Sys2Proof.Machine.execTestEbIbAlias e imm s
  | .testEwIwAlias e imm => Sys2Proof.Machine.execTestEwIwAlias e imm s
  | .rolEb1 dst => Sys2Proof.Machine.execRolEb1 dst s
  | .rolEw1 dst => Sys2Proof.Machine.execRolEw1 dst s
  | .rolEbCl dst => Sys2Proof.Machine.execRolEbCl dst s
  | .rolEwCl dst => Sys2Proof.Machine.execRolEwCl dst s
  | .rorEb1 dst => Sys2Proof.Machine.execRorEb1 dst s
  | .rorEw1 dst => Sys2Proof.Machine.execRorEw1 dst s
  | .rorEbCl dst => Sys2Proof.Machine.execRorEbCl dst s
  | .rorEwCl dst => Sys2Proof.Machine.execRorEwCl dst s
  | .rclEb1 dst => Sys2Proof.Machine.execRclEb1 dst s
  | .rclEw1 dst => Sys2Proof.Machine.execRclEw1 dst s
  | .rclEbCl dst => Sys2Proof.Machine.execRclEbCl dst s
  | .rclEwCl dst => Sys2Proof.Machine.execRclEwCl dst s
  | .rcrEb1 dst => Sys2Proof.Machine.execRcrEb1 dst s
  | .rcrEw1 dst => Sys2Proof.Machine.execRcrEw1 dst s
  | .rcrEbCl dst => Sys2Proof.Machine.execRcrEbCl dst s
  | .rcrEwCl dst => Sys2Proof.Machine.execRcrEwCl dst s
  | .shlEb1 dst => Sys2Proof.Machine.execShlEb1 dst s
  | .shlEw1 dst => Sys2Proof.Machine.execShlEw1 dst s
  | .shlEbCl dst => Sys2Proof.Machine.execShlEbCl dst s
  | .shlEwCl dst => Sys2Proof.Machine.execShlEwCl dst s
  | .shrEb1 dst => Sys2Proof.Machine.execShrEb1 dst s
  | .shrEw1 dst => Sys2Proof.Machine.execShrEw1 dst s
  | .shrEbCl dst => Sys2Proof.Machine.execShrEbCl dst s
  | .shrEwCl dst => Sys2Proof.Machine.execShrEwCl dst s
  | .sarEb1 dst => Sys2Proof.Machine.execSarEb1 dst s
  | .sarEw1 dst => Sys2Proof.Machine.execSarEw1 dst s
  | .sarEbCl dst => Sys2Proof.Machine.execSarEbCl dst s
  | .sarEwCl dst => Sys2Proof.Machine.execSarEwCl dst s
  | .shiftUndoc6 byCl wide mode rm => Sys2Proof.Machine.execShiftUndoc6 byCl wide mode rm s
  | .jo disp => Sys2Proof.Machine.execJo disp s
  | .jno disp => Sys2Proof.Machine.execJno disp s
  | .jb disp => Sys2Proof.Machine.execJb disp s
  | .jnb disp => Sys2Proof.Machine.execJnb disp s
  | .jz disp => Sys2Proof.Machine.execJz disp s
  | .jnz disp => Sys2Proof.Machine.execJnz disp s
  | .jbe disp => Sys2Proof.Machine.execJbe disp s
  | .ja disp => Sys2Proof.Machine.execJa disp s
  | .js disp => Sys2Proof.Machine.execJs disp s
  | .jns disp => Sys2Proof.Machine.execJns disp s
  | .jp disp => Sys2Proof.Machine.execJp disp s
  | .jnp disp => Sys2Proof.Machine.execJnp disp s
  | .jl disp => Sys2Proof.Machine.execJl disp s
  | .jge disp => Sys2Proof.Machine.execJge disp s
  | .jle disp => Sys2Proof.Machine.execJle disp s
  | .jg disp => Sys2Proof.Machine.execJg disp s
  | .joAlias disp => Sys2Proof.Machine.execJoAlias disp s
  | .jnoAlias disp => Sys2Proof.Machine.execJnoAlias disp s
  | .jbAlias disp => Sys2Proof.Machine.execJbAlias disp s
  | .jnbAlias disp => Sys2Proof.Machine.execJnbAlias disp s
  | .jzAlias disp => Sys2Proof.Machine.execJzAlias disp s
  | .jnzAlias disp => Sys2Proof.Machine.execJnzAlias disp s
  | .jbeAlias disp => Sys2Proof.Machine.execJbeAlias disp s
  | .jaAlias disp => Sys2Proof.Machine.execJaAlias disp s
  | .jsAlias disp => Sys2Proof.Machine.execJsAlias disp s
  | .jnsAlias disp => Sys2Proof.Machine.execJnsAlias disp s
  | .jpAlias disp => Sys2Proof.Machine.execJpAlias disp s
  | .jnpAlias disp => Sys2Proof.Machine.execJnpAlias disp s
  | .jlAlias disp => Sys2Proof.Machine.execJlAlias disp s
  | .jgeAlias disp => Sys2Proof.Machine.execJgeAlias disp s
  | .jleAlias disp => Sys2Proof.Machine.execJleAlias disp s
  | .jgAlias disp => Sys2Proof.Machine.execJgAlias disp s
  | .jmpJb disp => Sys2Proof.Machine.execJmpJb disp s
  | .jmpJw disp => Sys2Proof.Machine.execJmpJw disp s
  | .jmpEw target => Sys2Proof.Machine.execJmpEw target s
  | .jmpAp off sel => Sys2Proof.Machine.execJmpAp off sel s
  | .jmpMp ptr => Sys2Proof.Machine.execJmpMp ptr s
  | .jmpFarReg e => Sys2Proof.Machine.execJmpFarReg e s
  | .callJw disp => Sys2Proof.Machine.execCallJw disp s
  | .callEw target => Sys2Proof.Machine.execCallEw target s
  | .callAp off sel => Sys2Proof.Machine.execCallAp off sel s
  | .callMp ptr => Sys2Proof.Machine.execCallMp ptr s
  | .callFarReg e => Sys2Proof.Machine.execCallFarReg e s
  | .retIw release => Sys2Proof.Machine.execRetIw release s
  | .retIwAlias release => Sys2Proof.Machine.execRetIwAlias release s
  | .retfIw release => Sys2Proof.Machine.execRetfIw release s
  | .retfIwAlias release => Sys2Proof.Machine.execRetfIwAlias release s
  | .loopne disp => Sys2Proof.Machine.execLoopne disp s
  | .loope disp => Sys2Proof.Machine.execLoope disp s
  | .loop disp => Sys2Proof.Machine.execLoop disp s
  | .jcxz disp => Sys2Proof.Machine.execJcxz disp s
  | .int vector => Sys2Proof.Machine.execInt vector s
  | .esc op reg e => Sys2Proof.Machine.execEsc op reg e s
  | .feUndoc2 mode rm => Sys2Proof.Machine.execFeUndoc2 mode rm s
  | .feUndoc3 mode rm => Sys2Proof.Machine.execFeUndoc3 mode rm s
  | .feUndoc4 mode rm => Sys2Proof.Machine.execFeUndoc4 mode rm s
  | .feUndoc5 mode rm => Sys2Proof.Machine.execFeUndoc5 mode rm s
  | .feUndoc6 mode rm => Sys2Proof.Machine.execFeUndoc6 mode rm s
  | .feUndoc7 mode rm => Sys2Proof.Machine.execFeUndoc7 mode rm s
  | .esPrefix => Sys2Proof.Machine.execEsPrefix s
  | .csPrefix => Sys2Proof.Machine.execCsPrefix s
  | .ssPrefix => Sys2Proof.Machine.execSsPrefix s
  | .dsPrefix => Sys2Proof.Machine.execDsPrefix s
  | .lock => Sys2Proof.Machine.execLock s
  | .lockAlias => Sys2Proof.Machine.execLockAlias s
  | .repne => Sys2Proof.Machine.execRepne s
  | .repe => Sys2Proof.Machine.execRepe s
  | .popCs => Sys2Proof.Machine.execPopCs s
  | .xlat => Sys2Proof.Machine.execXlat s
  | .pushf => Sys2Proof.Machine.execPushf s
  | .popf => Sys2Proof.Machine.execPopf s
  | .sahf => Sys2Proof.Machine.execSahf s
  | .lahf => Sys2Proof.Machine.execLahf s
  | .inAlDx => Sys2Proof.Machine.execInAlDx s
  | .inAxDx => Sys2Proof.Machine.execInAxDx s
  | .outDxAl => Sys2Proof.Machine.execOutDxAl s
  | .outDxAx => Sys2Proof.Machine.execOutDxAx s
  | .daa => Sys2Proof.Machine.execDaa s
  | .das => Sys2Proof.Machine.execDas s
  | .aaa => Sys2Proof.Machine.execAaa s
  | .aas => Sys2Proof.Machine.execAas s
  | .aam => Sys2Proof.Machine.execAam s
  | .aad => Sys2Proof.Machine.execAad s
  | .cbw => Sys2Proof.Machine.execCbw s
  | .cwd => Sys2Proof.Machine.execCwd s
  | .movsb => Sys2Proof.Machine.execMovsb s
  | .movsw => Sys2Proof.Machine.execMovsw s
  | .cmpsb => Sys2Proof.Machine.execCmpsb s
  | .cmpsw => Sys2Proof.Machine.execCmpsw s
  | .stosb => Sys2Proof.Machine.execStosb s
  | .stosw => Sys2Proof.Machine.execStosw s
  | .lodsb => Sys2Proof.Machine.execLodsb s
  | .lodsw => Sys2Proof.Machine.execLodsw s
  | .scasb => Sys2Proof.Machine.execScasb s
  | .scasw => Sys2Proof.Machine.execScasw s
  | .ret => Sys2Proof.Machine.execRet s
  | .retAlias => Sys2Proof.Machine.execRetAlias s
  | .retf => Sys2Proof.Machine.execRetf s
  | .retfAlias => Sys2Proof.Machine.execRetfAlias s
  | .int3 => Sys2Proof.Machine.execInt3 s
  | .into => Sys2Proof.Machine.execInto s
  | .iret => Sys2Proof.Machine.execIret s
  | .clc => Sys2Proof.Machine.execClc s
  | .stc => Sys2Proof.Machine.execStc s
  | .cmc => Sys2Proof.Machine.execCmc s
  | .cld => Sys2Proof.Machine.execCld s
  | .std => Sys2Proof.Machine.execStd s
  | .cli => Sys2Proof.Machine.execCli s
  | .sti => Sys2Proof.Machine.execSti s
  | .hlt => Sys2Proof.Machine.execHlt s
  | .wait => Sys2Proof.Machine.execWait s
  | .nop => Sys2Proof.Machine.execNop s
  | .salc => Sys2Proof.Machine.execSalc s

end Sys2Proof.Machine
end

