-- ==== Sys2Proof/WellFormed.lean ====
section
/-! DEFINITION. Which terms of the syntax have an encoding. A term is ill formed when no byte sequence
stands for it: the memory operand `ind .bp` (R220), the POP and MOV of CS outside their own constructors
(R304, R302), XCHG AX,AX in the one-byte form (R305, R742), the selector 0 in an undocumented alias (R240
U10), and the base 0x0A in the other-base forms of AAM and AAD (R240 U16). -/

namespace Sys2Proof

/-- R220: mod 00 with rm 110 is the direct form, so a plain `[BP]` has no encoding. -/
def MemOp.wf : MemOp → Bool
  | .ind b => b != .bp
  | .direct _ => true
  | .disp8 _ _ => true
  | .disp16 _ _ => true

/-- A register operand is well formed; a memory operand as `MemOp.wf` says. -/
def Rm.wf {ρ : Type} : Rm ρ → Bool
  | .reg _ => true
  | .mem m => m.wf

/-- The instructions that have an encoding. -/
def Instr.wf : Instr → Bool
  | .addEbGb dst _ => dst.wf
  | .addEwGw dst _ => dst.wf
  | .addGbEb _ src => src.wf
  | .addGwEw _ src => src.wf
  | .addAlIb _ => true
  | .addAxIw _ => true
  | .addEbIb dst _ => dst.wf
  | .addEwIw dst _ => dst.wf
  | .addEwIbs dst _ => dst.wf
  | .addEbIbAlias dst _ => dst.wf
  | .orEbGb dst _ => dst.wf
  | .orEwGw dst _ => dst.wf
  | .orGbEb _ src => src.wf
  | .orGwEw _ src => src.wf
  | .orAlIb _ => true
  | .orAxIw _ => true
  | .orEbIb dst _ => dst.wf
  | .orEwIw dst _ => dst.wf
  | .orEwIbs dst _ => dst.wf
  | .orEbIbAlias dst _ => dst.wf
  | .adcEbGb dst _ => dst.wf
  | .adcEwGw dst _ => dst.wf
  | .adcGbEb _ src => src.wf
  | .adcGwEw _ src => src.wf
  | .adcAlIb _ => true
  | .adcAxIw _ => true
  | .adcEbIb dst _ => dst.wf
  | .adcEwIw dst _ => dst.wf
  | .adcEwIbs dst _ => dst.wf
  | .adcEbIbAlias dst _ => dst.wf
  | .sbbEbGb dst _ => dst.wf
  | .sbbEwGw dst _ => dst.wf
  | .sbbGbEb _ src => src.wf
  | .sbbGwEw _ src => src.wf
  | .sbbAlIb _ => true
  | .sbbAxIw _ => true
  | .sbbEbIb dst _ => dst.wf
  | .sbbEwIw dst _ => dst.wf
  | .sbbEwIbs dst _ => dst.wf
  | .sbbEbIbAlias dst _ => dst.wf
  | .andEbGb dst _ => dst.wf
  | .andEwGw dst _ => dst.wf
  | .andGbEb _ src => src.wf
  | .andGwEw _ src => src.wf
  | .andAlIb _ => true
  | .andAxIw _ => true
  | .andEbIb dst _ => dst.wf
  | .andEwIw dst _ => dst.wf
  | .andEwIbs dst _ => dst.wf
  | .andEbIbAlias dst _ => dst.wf
  | .subEbGb dst _ => dst.wf
  | .subEwGw dst _ => dst.wf
  | .subGbEb _ src => src.wf
  | .subGwEw _ src => src.wf
  | .subAlIb _ => true
  | .subAxIw _ => true
  | .subEbIb dst _ => dst.wf
  | .subEwIw dst _ => dst.wf
  | .subEwIbs dst _ => dst.wf
  | .subEbIbAlias dst _ => dst.wf
  | .xorEbGb dst _ => dst.wf
  | .xorEwGw dst _ => dst.wf
  | .xorGbEb _ src => src.wf
  | .xorGwEw _ src => src.wf
  | .xorAlIb _ => true
  | .xorAxIw _ => true
  | .xorEbIb dst _ => dst.wf
  | .xorEwIw dst _ => dst.wf
  | .xorEwIbs dst _ => dst.wf
  | .xorEbIbAlias dst _ => dst.wf
  | .cmpEbGb dst _ => dst.wf
  | .cmpEwGw dst _ => dst.wf
  | .cmpGbEb _ src => src.wf
  | .cmpGwEw _ src => src.wf
  | .cmpAlIb _ => true
  | .cmpAxIw _ => true
  | .cmpEbIb dst _ => dst.wf
  | .cmpEwIw dst _ => dst.wf
  | .cmpEwIbs dst _ => dst.wf
  | .cmpEbIbAlias dst _ => dst.wf
  | .pushSreg _ => true
  | .pushR16 _ => true
  | .pushEw src => src.wf
  | .pushEwAlias src => src.wf
  | .popSreg dst => dst != .cs
  | .popR16 _ => true
  | .popEw dst => dst.wf
  | .popEwAlias sel dst => sel != 0 && dst.wf
  | .xchgEbGb e _ => e.wf
  | .xchgEwGw e _ => e.wf
  | .xchgAxR16 r => r != .ax
  | .movEbGb dst _ => dst.wf
  | .movEwGw dst _ => dst.wf
  | .movGbEb _ src => src.wf
  | .movGwEw _ src => src.wf
  | .movEwSw dst _ => dst.wf
  | .movEwSwAlias dst _ => dst.wf
  | .movSwEw dst src => dst != .cs && src.wf
  | .movSwEwAlias dst src => dst != .cs && src.wf
  | .movCsEw _ _ _ => true
  | .movAlOb _ => true
  | .movAxOw _ => true
  | .movObAl _ => true
  | .movOwAx _ => true
  | .movR8Ib _ _ => true
  | .movR16Iw _ _ => true
  | .movEbIb dst _ => dst.wf
  | .movEwIw dst _ => dst.wf
  | .movEbIbAlias sel dst _ => sel != 0 && dst.wf
  | .movEwIwAlias sel dst _ => sel != 0 && dst.wf
  | .lea _ src => src.wf
  | .leaReg _ _ => true
  | .les _ src => src.wf
  | .lesReg _ _ => true
  | .lds _ src => src.wf
  | .ldsReg _ _ => true
  | .inAlIb _ => true
  | .inAxIb _ => true
  | .outIbAl _ => true
  | .outIbAx _ => true
  | .incR16 _ => true
  | .incEb dst => dst.wf
  | .incEw dst => dst.wf
  | .decR16 _ => true
  | .decEb dst => dst.wf
  | .decEw dst => dst.wf
  | .notEb dst => dst.wf
  | .notEw dst => dst.wf
  | .negEb dst => dst.wf
  | .negEw dst => dst.wf
  | .mulEb src => src.wf
  | .mulEw src => src.wf
  | .imulEb src => src.wf
  | .imulEw src => src.wf
  | .divEb src => src.wf
  | .divEw src => src.wf
  | .idivEb src => src.wf
  | .idivEw src => src.wf
  | .aamBase base => base != 0x0A#8
  | .aadBase base => base != 0x0A#8
  | .testEbGb e _ => e.wf
  | .testEwGw e _ => e.wf
  | .testAlIb _ => true
  | .testAxIw _ => true
  | .testEbIb e _ => e.wf
  | .testEwIw e _ => e.wf
  | .testEbIbAlias e _ => e.wf
  | .testEwIwAlias e _ => e.wf
  | .rolEb1 dst => dst.wf
  | .rolEw1 dst => dst.wf
  | .rolEbCl dst => dst.wf
  | .rolEwCl dst => dst.wf
  | .rorEb1 dst => dst.wf
  | .rorEw1 dst => dst.wf
  | .rorEbCl dst => dst.wf
  | .rorEwCl dst => dst.wf
  | .rclEb1 dst => dst.wf
  | .rclEw1 dst => dst.wf
  | .rclEbCl dst => dst.wf
  | .rclEwCl dst => dst.wf
  | .rcrEb1 dst => dst.wf
  | .rcrEw1 dst => dst.wf
  | .rcrEbCl dst => dst.wf
  | .rcrEwCl dst => dst.wf
  | .shlEb1 dst => dst.wf
  | .shlEw1 dst => dst.wf
  | .shlEbCl dst => dst.wf
  | .shlEwCl dst => dst.wf
  | .shrEb1 dst => dst.wf
  | .shrEw1 dst => dst.wf
  | .shrEbCl dst => dst.wf
  | .shrEwCl dst => dst.wf
  | .sarEb1 dst => dst.wf
  | .sarEw1 dst => dst.wf
  | .sarEbCl dst => dst.wf
  | .sarEwCl dst => dst.wf
  | .shiftUndoc6 _ _ _ _ => true
  | .jo _ => true
  | .jno _ => true
  | .jb _ => true
  | .jnb _ => true
  | .jz _ => true
  | .jnz _ => true
  | .jbe _ => true
  | .ja _ => true
  | .js _ => true
  | .jns _ => true
  | .jp _ => true
  | .jnp _ => true
  | .jl _ => true
  | .jge _ => true
  | .jle _ => true
  | .jg _ => true
  | .joAlias _ => true
  | .jnoAlias _ => true
  | .jbAlias _ => true
  | .jnbAlias _ => true
  | .jzAlias _ => true
  | .jnzAlias _ => true
  | .jbeAlias _ => true
  | .jaAlias _ => true
  | .jsAlias _ => true
  | .jnsAlias _ => true
  | .jpAlias _ => true
  | .jnpAlias _ => true
  | .jlAlias _ => true
  | .jgeAlias _ => true
  | .jleAlias _ => true
  | .jgAlias _ => true
  | .jmpJb _ => true
  | .jmpJw _ => true
  | .jmpEw target => target.wf
  | .jmpAp _ _ => true
  | .jmpMp ptr => ptr.wf
  | .jmpFarReg _ => true
  | .callJw _ => true
  | .callEw target => target.wf
  | .callAp _ _ => true
  | .callMp ptr => ptr.wf
  | .callFarReg _ => true
  | .retIw _ => true
  | .retIwAlias _ => true
  | .retfIw _ => true
  | .retfIwAlias _ => true
  | .loopne _ => true
  | .loope _ => true
  | .loop _ => true
  | .jcxz _ => true
  | .int _ => true
  | .esc _ _ e => e.wf
  | .feUndoc2 _ _ => true
  | .feUndoc3 _ _ => true
  | .feUndoc4 _ _ => true
  | .feUndoc5 _ _ => true
  | .feUndoc6 _ _ => true
  | .feUndoc7 _ _ => true
  | .esPrefix => true
  | .csPrefix => true
  | .ssPrefix => true
  | .dsPrefix => true
  | .lock => true
  | .lockAlias => true
  | .repne => true
  | .repe => true
  | .popCs => true
  | .xlat => true
  | .pushf => true
  | .popf => true
  | .sahf => true
  | .lahf => true
  | .inAlDx => true
  | .inAxDx => true
  | .outDxAl => true
  | .outDxAx => true
  | .daa => true
  | .das => true
  | .aaa => true
  | .aas => true
  | .aam => true
  | .aad => true
  | .cbw => true
  | .cwd => true
  | .movsb => true
  | .movsw => true
  | .cmpsb => true
  | .cmpsw => true
  | .stosb => true
  | .stosw => true
  | .lodsb => true
  | .lodsw => true
  | .scasb => true
  | .scasw => true
  | .ret => true
  | .retAlias => true
  | .retf => true
  | .retfAlias => true
  | .int3 => true
  | .into => true
  | .iret => true
  | .clc => true
  | .stc => true
  | .cmc => true
  | .cld => true
  | .std => true
  | .cli => true
  | .sti => true
  | .hlt => true
  | .wait => true
  | .nop => true
  | .salc => true

end Sys2Proof
end

