-- ==== Sys2Proof/Decode.lean ====
section
/-! DEFINITION. The decoder and, after it, the encoder (30_encoding.md R200 to R245). Decoding reads the
bytes of one unit of the instruction stream: it answers the unit and the bytes left, or that it needs
another byte. The opcode map of R235 stands here as sixteen rows of sixteen entries. -/

namespace Sys2Proof

/-! ### Codes of registers, segments, bases and conditions -/

/-- The code of a byte register (R215). -/
def Reg8.code : Reg8 → Bits3
  | .al => 0
  | .cl => 1
  | .dl => 2
  | .bl => 3
  | .ah => 4
  | .ch => 5
  | .dh => 6
  | .bh => 7

/-- The byte register of a code (R215). -/
def Reg8.ofCode (c : Bits3) : Reg8 :=
  match c.toNat with
  | 0 => .al
  | 1 => .cl
  | 2 => .dl
  | 3 => .bl
  | 4 => .ah
  | 5 => .ch
  | 6 => .dh
  | _ => .bh

/-- The code of a word register (R215). -/
def Reg16.code : Reg16 → Bits3
  | .ax => 0
  | .cx => 1
  | .dx => 2
  | .bx => 3
  | .sp => 4
  | .bp => 5
  | .si => 6
  | .di => 7

/-- The word register of a code (R215). -/
def Reg16.ofCode (c : Bits3) : Reg16 :=
  match c.toNat with
  | 0 => .ax
  | 1 => .cx
  | 2 => .dx
  | 3 => .bx
  | 4 => .sp
  | 5 => .bp
  | 6 => .si
  | _ => .di

/-- The code of a segment register (R216). -/
def SReg.code : SReg → Bits2
  | .es => 0
  | .cs => 1
  | .ss => 2
  | .ds => 3

/-- The segment register of a code (R216). -/
def SReg.ofCode (c : Bits2) : SReg :=
  match c.toNat with
  | 0 => .es
  | 1 => .cs
  | 2 => .ss
  | _ => .ds

/-- The `rm` code of a base and index combination (R220). -/
def Base.code : Base → Bits3
  | .bxSi => 0
  | .bxDi => 1
  | .bpSi => 2
  | .bpDi => 3
  | .si => 4
  | .di => 5
  | .bp => 6
  | .bx => 7

/-- The base and index combination of an `rm` code (R220). -/
def Base.ofCode (c : Bits3) : Base :=
  match c.toNat with
  | 0 => .bxSi
  | 1 => .bxDi
  | 2 => .bpSi
  | 3 => .bpDi
  | 4 => .si
  | 5 => .di
  | 6 => .bp
  | _ => .bx

/-! ### The bytes of one unit -/

/-- `mod`, bits 7 to 6 of a ModRM byte (R217). -/
def modOf (b : Byte) : Bits2 := b.extractLsb' 6 2

/-- `reg`, bits 5 to 3 of a ModRM byte (R217). -/
def regOf (b : Byte) : Bits3 := b.extractLsb' 3 3

/-- `rm`, bits 2 to 0 of a ModRM byte (R217). -/
def rmOf (b : Byte) : Bits3 := b.extractLsb' 0 3

/-- The word of two bytes of the stream, low byte first (R230, R221). -/
def wordOf (lo hi : Byte) : Word := hi ++ lo

/-- What follows a ModRM byte, and the unit it all gives (R221, R230). -/
inductive Tail where
  /-- Nothing more: the encoding is complete (U7, U8, U9, U17, U18). -/
  | stop (i : Instr)
  /-- An r/m operand of byte width. -/
  | e8 (f : Rm Reg8 → Instr)
  /-- An r/m operand of word width. -/
  | e16 (f : Rm Reg16 → Instr)
  /-- A memory operand (the entry has checked that `mod` is not 11). -/
  | mem (f : MemOp → Instr)
  /-- A byte r/m operand, then an immediate byte. -/
  | e8ib (f : Rm Reg8 → Byte → Instr)
  /-- A word r/m operand, then an immediate byte. -/
  | e16ib (f : Rm Reg16 → Byte → Instr)
  /-- A word r/m operand, then an immediate word. -/
  | e16iw (f : Rm Reg16 → Word → Instr)

/-- What follows an opcode byte, and the unit it all gives (R200). -/
inductive Entry where
  | op (i : Instr)
  /-- One byte: an immediate, a port or a displacement. -/
  | ib (f : Byte → Instr)
  /-- One word: an immediate, an offset or a displacement. -/
  | iw (f : Word → Instr)
  /-- An offset word, then a segment word (R232). -/
  | ap (f : Word → Word → Instr)
  /-- A ModRM byte, whose `mod`, `reg` and `rm` select what follows. -/
  | modrm (f : Bits2 → Bits3 → Bits3 → Tail)

/-- The answer of the decoder. -/
inductive Decoded where
  /-- The bytes so far are not a whole unit. -/
  | more
  | done (i : Instr) (rest : List Byte)
  deriving DecidableEq, Repr

/-! ### The opcode map (R235) -/

/-- One of eight, by a three-bit selector. -/
def select8 {α : Type} (i : Bits3) (a0 a1 a2 a3 a4 a5 a6 a7 : α) : α :=
  match i.toNat with
  | 0 => a0
  | 1 => a1
  | 2 => a2
  | 3 => a3
  | 4 => a4
  | 5 => a5
  | 6 => a6
  | _ => a7

/-- `Eb,Gb` and `Gb,Eb`: the byte register is `reg`. -/
def ebGb (f : Rm Reg8 → Reg8 → Instr) : Entry := .modrm fun _ reg _ => .e8 fun e => f e (.ofCode reg)

/-- `Ew,Gw`: the word register is `reg`. -/
def ewGw (f : Rm Reg16 → Reg16 → Instr) : Entry := .modrm fun _ reg _ => .e16 fun e => f e (.ofCode reg)

/-- `Gb,Eb`. -/
def gbEb (f : Reg8 → Rm Reg8 → Instr) : Entry := .modrm fun _ reg _ => .e8 fun e => f (.ofCode reg) e

/-- `Gw,Ew`. -/
def gwEw (f : Reg16 → Rm Reg16 → Instr) : Entry := .modrm fun _ reg _ => .e16 fun e => f (.ofCode reg) e

/-- `Gw,M`: a memory form, and what mod 11 is (U8). -/
def gwM (f : Reg16 → MemOp → Instr) (r : Reg16 → Reg16 → Instr) : Entry := .modrm fun mode reg rm =>
  if mode = 3 then .stop (r (.ofCode reg) (.ofCode rm)) else .mem fun m => f (.ofCode reg) m

/-- A group member with a memory operand only, and what mod 11 is (U9). -/
def memOnly (f : MemOp → Instr) (r : Reg16 → Instr) (mode : Bits2) (rm : Bits3) : Tail :=
  if mode = 3 then .stop (r (.ofCode rm)) else .mem f

/-- A shift or rotate group of byte width: its eight members, /6 being undocumented (R510). -/
def shiftGroup8 (byCl : Bool) (rol ror rcl rcr shl shr sar : Rm Reg8 → Instr) : Entry :=
  .modrm fun mode reg rm => select8 reg (.e8 rol) (.e8 ror) (.e8 rcl) (.e8 rcr) (.e8 shl) (.e8 shr)
    (.stop (.shiftUndoc6 byCl false mode rm)) (.e8 sar)

/-- A shift or rotate group of word width. -/
def shiftGroup16 (byCl : Bool) (rol ror rcl rcr shl shr sar : Rm Reg16 → Instr) : Entry :=
  .modrm fun mode reg rm => select8 reg (.e16 rol) (.e16 ror) (.e16 rcl) (.e16 rcr) (.e16 shl) (.e16 shr)
    (.stop (.shiftUndoc6 byCl true mode rm)) (.e16 sar)

/-- The six entries `op*8+0` to `op*8+5` of a binary ALU operation (R408). -/
def aluEntries (a : Rm Reg8 → Reg8 → Instr) (b : Rm Reg16 → Reg16 → Instr)
    (c : Reg8 → Rm Reg8 → Instr) (d : Reg16 → Rm Reg16 → Instr) (e : Byte → Instr)
    (f : Word → Instr) : List Entry :=
  [ebGb a, ewGw b, gbEb c, gwEw d, .ib e, .iw f]

/-- Row 0 of the opcode map. -/
def opRow0 : List Entry :=
  aluEntries .addEbGb .addEwGw .addGbEb .addGwEw .addAlIb .addAxIw ++
    [.op (.pushSreg .es), .op (.popSreg .es)] ++
  aluEntries .orEbGb .orEwGw .orGbEb .orGwEw .orAlIb .orAxIw ++
    [.op (.pushSreg .cs), .op .popCs]

/-- Row 1 of the opcode map. -/
def opRow1 : List Entry :=
  aluEntries .adcEbGb .adcEwGw .adcGbEb .adcGwEw .adcAlIb .adcAxIw ++
    [.op (.pushSreg .ss), .op (.popSreg .ss)] ++
  aluEntries .sbbEbGb .sbbEwGw .sbbGbEb .sbbGwEw .sbbAlIb .sbbAxIw ++
    [.op (.pushSreg .ds), .op (.popSreg .ds)]

/-- Row 2 of the opcode map. -/
def opRow2 : List Entry :=
  aluEntries .andEbGb .andEwGw .andGbEb .andGwEw .andAlIb .andAxIw ++
    [.op .esPrefix, .op .daa] ++
  aluEntries .subEbGb .subEwGw .subGbEb .subGwEw .subAlIb .subAxIw ++
    [.op .csPrefix, .op .das]

/-- Row 3 of the opcode map. -/
def opRow3 : List Entry :=
  aluEntries .xorEbGb .xorEwGw .xorGbEb .xorGwEw .xorAlIb .xorAxIw ++
    [.op .ssPrefix, .op .aaa] ++
  aluEntries .cmpEbGb .cmpEwGw .cmpGbEb .cmpGwEw .cmpAlIb .cmpAxIw ++
    [.op .dsPrefix, .op .aas]

/-- Row 4 of the opcode map. -/
def opRow4 : List Entry :=
  [.op (.incR16 .ax), .op (.incR16 .cx), .op (.incR16 .dx), .op (.incR16 .bx), .op (.incR16 .sp),
   .op (.incR16 .bp), .op (.incR16 .si), .op (.incR16 .di), .op (.decR16 .ax), .op (.decR16 .cx),
   .op (.decR16 .dx), .op (.decR16 .bx), .op (.decR16 .sp), .op (.decR16 .bp), .op (.decR16 .si),
   .op (.decR16 .di)]

/-- Row 5 of the opcode map. -/
def opRow5 : List Entry :=
  [.op (.pushR16 .ax), .op (.pushR16 .cx), .op (.pushR16 .dx), .op (.pushR16 .bx), .op (.pushR16 .sp),
   .op (.pushR16 .bp), .op (.pushR16 .si), .op (.pushR16 .di), .op (.popR16 .ax), .op (.popR16 .cx),
   .op (.popR16 .dx), .op (.popR16 .bx), .op (.popR16 .sp), .op (.popR16 .bp), .op (.popR16 .si),
   .op (.popR16 .di)]

/-- Row 6 of the opcode map. -/
def opRow6 : List Entry :=
  [.ib .joAlias, .ib .jnoAlias, .ib .jbAlias, .ib .jnbAlias, .ib .jzAlias, .ib .jnzAlias, .ib .jbeAlias,
   .ib .jaAlias, .ib .jsAlias, .ib .jnsAlias, .ib .jpAlias, .ib .jnpAlias, .ib .jlAlias, .ib .jgeAlias,
   .ib .jleAlias, .ib .jgAlias]

/-- Row 7 of the opcode map. -/
def opRow7 : List Entry :=
  [.ib .jo, .ib .jno, .ib .jb, .ib .jnb, .ib .jz, .ib .jnz, .ib .jbe, .ib .ja, .ib .js, .ib .jns,
   .ib .jp, .ib .jnp, .ib .jl, .ib .jge, .ib .jle, .ib .jg]

/-- Row 8 of the opcode map. -/
def opRow8 : List Entry :=
  [.modrm fun _ reg _ => .e8ib (select8 reg
     .addEbIb .orEbIb .adcEbIb .sbbEbIb .andEbIb .subEbIb .xorEbIb .cmpEbIb),
   .modrm fun _ reg _ => .e16iw (select8 reg
     .addEwIw .orEwIw .adcEwIw .sbbEwIw .andEwIw .subEwIw .xorEwIw .cmpEwIw),
   .modrm fun _ reg _ => .e8ib (select8 reg
     .addEbIbAlias .orEbIbAlias .adcEbIbAlias .sbbEbIbAlias .andEbIbAlias .subEbIbAlias .xorEbIbAlias .cmpEbIbAlias),
   .modrm fun _ reg _ => .e16ib (select8 reg
     .addEwIbs .orEwIbs .adcEwIbs .sbbEwIbs .andEwIbs .subEwIbs .xorEwIbs .cmpEwIbs),
   ebGb .testEbGb, ewGw .testEwGw, ebGb .xchgEbGb, ewGw .xchgEwGw,
   ebGb .movEbGb, ewGw .movEwGw, gbEb .movGbEb, gwEw .movGwEw,
   .modrm fun _ reg _ =>
     .e16 fun e =>
       if reg.msb then .movEwSwAlias e (.ofCode (reg.setWidth 2)) else .movEwSw e (.ofCode (reg.setWidth 2)),
   gwM .lea .leaReg,
   .modrm fun mode reg rm =>
     if reg.setWidth 2 = (1 : Bits2) then .stop (.movCsEw reg.msb mode rm)
     else .e16 fun e =>
       if reg.msb then .movSwEwAlias (.ofCode (reg.setWidth 2)) e else .movSwEw (.ofCode (reg.setWidth 2)) e,
   .modrm fun _ reg _ => .e16 fun e => if reg = 0 then .popEw e else .popEwAlias reg e]

/-- Row 9 of the opcode map. -/
def opRow9 : List Entry :=
  [.op .nop, .op (.xchgAxR16 .cx), .op (.xchgAxR16 .dx), .op (.xchgAxR16 .bx), .op (.xchgAxR16 .sp),
   .op (.xchgAxR16 .bp), .op (.xchgAxR16 .si), .op (.xchgAxR16 .di), .op .cbw, .op .cwd, .ap .callAp,
   .op .wait, .op .pushf, .op .popf, .op .sahf, .op .lahf]

/-- Row A of the opcode map. -/
def opRowA : List Entry :=
  [.iw .movAlOb, .iw .movAxOw, .iw .movObAl, .iw .movOwAx, .op .movsb, .op .movsw, .op .cmpsb,
   .op .cmpsw, .ib .testAlIb, .iw .testAxIw, .op .stosb, .op .stosw, .op .lodsb, .op .lodsw, .op .scasb,
   .op .scasw]

/-- Row B of the opcode map. -/
def opRowB : List Entry :=
  [.ib (.movR8Ib .al), .ib (.movR8Ib .cl), .ib (.movR8Ib .dl), .ib (.movR8Ib .bl), .ib (.movR8Ib .ah),
   .ib (.movR8Ib .ch), .ib (.movR8Ib .dh), .ib (.movR8Ib .bh), .iw (.movR16Iw .ax), .iw (.movR16Iw .cx),
   .iw (.movR16Iw .dx), .iw (.movR16Iw .bx), .iw (.movR16Iw .sp), .iw (.movR16Iw .bp),
   .iw (.movR16Iw .si), .iw (.movR16Iw .di)]

/-- Row C of the opcode map. -/
def opRowC : List Entry :=
  [.iw .retIwAlias, .op .retAlias, .iw .retIw, .op .ret, gwM .les .lesReg, gwM .lds .ldsReg,
   .modrm fun _ reg _ => .e8ib fun e i => if reg = 0 then .movEbIb e i else .movEbIbAlias reg e i,
   .modrm fun _ reg _ => .e16iw fun e i => if reg = 0 then .movEwIw e i else .movEwIwAlias reg e i,
   .iw .retfIwAlias, .op .retfAlias, .iw .retfIw, .op .retf, .op .int3, .ib .int, .op .into, .op .iret]

/-- ESC: three bits of the coprocessor opcode in the opcode byte, three in `reg` (R242). -/
def escEntry (op : Bits3) : Entry := .modrm fun _ reg _ => .e16 fun e => .esc op reg e

/-- Row D of the opcode map. -/
def opRowD : List Entry :=
  [shiftGroup8 false .rolEb1 .rorEb1 .rclEb1 .rcrEb1 .shlEb1 .shrEb1 .sarEb1,
   shiftGroup16 false .rolEw1 .rorEw1 .rclEw1 .rcrEw1 .shlEw1 .shrEw1 .sarEw1,
   shiftGroup8 true .rolEbCl .rorEbCl .rclEbCl .rcrEbCl .shlEbCl .shrEbCl .sarEbCl,
   shiftGroup16 true .rolEwCl .rorEwCl .rclEwCl .rcrEwCl .shlEwCl .shrEwCl .sarEwCl,
   .ib fun b => if b = 0x0A#8 then .aam else .aamBase b,
   .ib fun b => if b = 0x0A#8 then .aad else .aadBase b,
   .op .salc, .op .xlat,
   escEntry 0, escEntry 1, escEntry 2, escEntry 3,
   escEntry 4, escEntry 5, escEntry 6, escEntry 7]

/-- Row E of the opcode map. -/
def opRowE : List Entry :=
  [.ib .loopne, .ib .loope, .ib .loop, .ib .jcxz, .ib .inAlIb, .ib .inAxIb, .ib .outIbAl, .ib .outIbAx,
   .iw .callJw, .iw .jmpJw, .ap .jmpAp, .ib .jmpJb, .op .inAlDx, .op .inAxDx, .op .outDxAl, .op .outDxAx]

/-- Row F of the opcode map. -/
def opRowF : List Entry :=
  [.op .lock, .op .lockAlias, .op .repne, .op .repe, .op .hlt, .op .cmc,
   .modrm fun _ reg _ => select8 reg
     (.e8ib .testEbIb) (.e8ib .testEbIbAlias)
     (.e8 .notEb) (.e8 .negEb) (.e8 .mulEb) (.e8 .imulEb) (.e8 .divEb) (.e8 .idivEb),
   .modrm fun _ reg _ => select8 reg
     (.e16iw .testEwIw) (.e16iw .testEwIwAlias)
     (.e16 .notEw) (.e16 .negEw) (.e16 .mulEw) (.e16 .imulEw) (.e16 .divEw) (.e16 .idivEw),
   .op .clc, .op .stc, .op .cli, .op .sti, .op .cld, .op .std,
   .modrm fun mode reg rm => select8 reg (.e8 .incEb) (.e8 .decEb)
     (.stop (.feUndoc2 mode rm)) (.stop (.feUndoc3 mode rm)) (.stop (.feUndoc4 mode rm))
     (.stop (.feUndoc5 mode rm)) (.stop (.feUndoc6 mode rm)) (.stop (.feUndoc7 mode rm)),
   .modrm fun mode reg rm => select8 reg (.e16 .incEw) (.e16 .decEw) (.e16 .callEw)
     (memOnly .callMp .callFarReg mode rm) (.e16 .jmpEw) (memOnly .jmpMp .jmpFarReg mode rm)
     (.e16 .pushEw) (.e16 .pushEwAlias)]

/-- The opcode map (R235). -/
def opMap : List (List Entry) :=
  [opRow0, opRow1, opRow2, opRow3, opRow4, opRow5, opRow6, opRow7,
   opRow8, opRow9, opRowA, opRowB, opRowC, opRowD, opRowE, opRowF]

/-- The entry of an opcode byte. The map has all 256, so the defaults are never taken. -/
def opEntry (op : Byte) : Entry :=
  ((opMap[op.toNat / 16]?).getD [])[op.toNat % 16]?.getD (.op .nop)

/-! ### Decoding -/

/-- A memory operand and its displacement (R220, R221), `mode` being 00, 01 or 10. -/
def decodeMem (mode : Bits2) (rm : Bits3) (bytes : List Byte) : Option (MemOp × List Byte) :=
  if mode = 0 then
    if rm = 6 then
      match bytes with
      | lo :: hi :: rest => some (.direct (wordOf lo hi), rest)
      | _ => none
    else some (.ind (.ofCode rm), bytes)
  else if mode = 1 then
    match bytes with
    | d :: rest => some (.disp8 (.ofCode rm) d, rest)
    | _ => none
  else
    match bytes with
    | lo :: hi :: rest => some (.disp16 (.ofCode rm) (wordOf lo hi), rest)
    | _ => none

/-- An r/m operand (R220, R222). -/
def decodeRm {ρ : Type} (ofCode : Bits3 → ρ) (mode : Bits2) (rm : Bits3) (bytes : List Byte) :
    Option (Rm ρ × List Byte) :=
  if mode = 3 then some (.reg (ofCode rm), bytes)
  else (decodeMem mode rm bytes).map fun x => (.mem x.1, x.2)

/-- An immediate byte. -/
def decodeIb (f : Byte → Instr) : List Byte → Decoded
  | b :: rest => .done (f b) rest
  | [] => .more

/-- An immediate word. -/
def decodeIw (f : Word → Instr) : List Byte → Decoded
  | lo :: hi :: rest => .done (f (wordOf lo hi)) rest
  | _ => .more

/-- A far pointer. -/
def decodeAp (f : Word → Word → Instr) : List Byte → Decoded
  | a :: b :: c :: d :: rest => .done (f (wordOf a b) (wordOf c d)) rest
  | _ => .more

/-- What follows a ModRM byte with the fields `mode` and `rm`. -/
def decodeTail (mode : Bits2) (rm : Bits3) (t : Tail) (bytes : List Byte) : Decoded :=
  match t with
  | .stop i => .done i bytes
  | .e8 f =>
    match decodeRm Reg8.ofCode mode rm bytes with
    | some (e, rest) => .done (f e) rest
    | none => .more
  | .e16 f =>
    match decodeRm Reg16.ofCode mode rm bytes with
    | some (e, rest) => .done (f e) rest
    | none => .more
  | .mem f =>
    match decodeMem mode rm bytes with
    | some (m, rest) => .done (f m) rest
    | none => .more
  | .e8ib f =>
    match decodeRm Reg8.ofCode mode rm bytes with
    | some (e, rest) => decodeIb (f e) rest
    | none => .more
  | .e16ib f =>
    match decodeRm Reg16.ofCode mode rm bytes with
    | some (e, rest) => decodeIb (f e) rest
    | none => .more
  | .e16iw f =>
    match decodeRm Reg16.ofCode mode rm bytes with
    | some (e, rest) => decodeIw (f e) rest
    | none => .more

/-- What follows an opcode byte. -/
def decodeEntry (e : Entry) (bytes : List Byte) : Decoded :=
  match e with
  | .op i => .done i bytes
  | .ib f => decodeIb f bytes
  | .iw f => decodeIw f bytes
  | .ap f => decodeAp f bytes
  | .modrm f =>
    match bytes with
    | m :: rest => decodeTail (modOf m) (rmOf m) (f (modOf m) (regOf m) (rmOf m)) rest
    | [] => .more

/-- Decode one unit of the instruction stream (R201). -/
def decode : List Byte → Decoded
  | op :: rest => decodeEntry (opEntry op) rest
  | [] => .more

/-! ### Undocumented encodings (R240) -/

/-- Whether an opcode has a ModRM byte (R205). -/
def hasModrm (op : Byte) : Bool :=
  let n := op.toNat
  (decide (n < 0x40) && decide (n % 8 < 4)) || (decide (0x80 ≤ n) && decide (n ≤ 0x8F)) ||
    (decide (0xC4 ≤ n) && decide (n ≤ 0xC7)) || (decide (0xD0 ≤ n) && decide (n ≤ 0xD3)) ||
    (decide (0xD8 ≤ n) && decide (n ≤ 0xDF)) || decide (n = 0xF6) || decide (n = 0xF7) ||
    decide (n = 0xFE) || decide (n = 0xFF)

/-- The undocumented encodings that the opcode byte alone identifies (R240). -/
def undocOp (op : Byte) : Option UndocId :=
  let n := op.toNat
  if 0x60 ≤ n ∧ n ≤ 0x6F then some .u1
  else if n = 0xC0 ∨ n = 0xC1 ∨ n = 0xC8 ∨ n = 0xC9 then some .u4
  else if n = 0x0F then some .u7
  else if n = 0xF1 then some .u12
  else if n = 0xD6 then some .u14
  else none

/-- The undocumented encodings that the opcode and ModRM bytes identify (R240). -/
def undocModrm (op m : Byte) : Option UndocId :=
  let n := op.toNat
  let r := (regOf m).toNat
  if n = 0x82 then some .u2
  else if n = 0x83 then (if r = 1 ∨ r = 4 ∨ r = 6 then some .u3 else none)
  else if n = 0x8C then (if 4 ≤ r then some .u5 else none)
  else if n = 0x8E then
    (if r = 1 ∨ r = 5 then some .u7 else if 4 ≤ r then some .u6 else none)
  else if n = 0x8D ∨ n = 0xC4 ∨ n = 0xC5 then (if modOf m = 3 then some .u8 else none)
  else if n = 0x8F ∨ n = 0xC6 ∨ n = 0xC7 then (if r = 0 then none else some .u10)
  else if 0xD0 ≤ n ∧ n ≤ 0xD3 then (if r = 6 then some .u17 else none)
  else if n = 0xF6 ∨ n = 0xF7 then (if r = 1 then some .u11 else none)
  else if n = 0xFE then (if 2 ≤ r then some .u18 else none)
  else if n = 0xFF then
    (if r = 7 then some .u13 else if (r = 3 ∨ r = 5) ∧ modOf m = 3 then some .u9 else none)
  else none

/-- Whether an opcode byte is AAM or AAD, whose second byte tells documented from undocumented (U16). -/
def isAsciiBase (op : Byte) : Bool := decide (op = 0xD4#8) || decide (op = 0xD5#8)

/-- The undocumented encoding that the bytes of a unit identify with their last byte, if any (R201, R240). -/
def undocOf : List Byte → Option UndocId
  | [op] => if hasModrm op then none else undocOp op
  | [op, b] =>
    if hasModrm op then undocModrm op b
    else if isAsciiBase op ∧ b ≠ 0x0A#8 then some .u16 else none
  | _ => none

/-- A prefix byte (R202). -/
def isPrefixByte (op : Byte) : Bool :=
  decide (op = 0x26#8) || decide (op = 0x2E#8) || decide (op = 0x36#8) || decide (op = 0x3E#8) ||
    decide (op = 0xF0#8) || decide (op = 0xF1#8) || decide (op = 0xF2#8) || decide (op = 0xF3#8)

/-- A string opcode: A4 to A7, AA to AF (R201). -/
def isStringOp (op : Byte) : Bool :=
  let n := op.toNat
  (decide (0xA4 ≤ n) && decide (n ≤ 0xA7)) || (decide (0xAA ≤ n) && decide (n ≤ 0xAF))

/-- Whether the bytes of a unit have just shown, with the last of them, an opcode that takes no repeat
prefix: R201 looks after the opcode and its ModRM byte (U15). -/
def refusesRep : List Byte → Bool
  | [op] => !hasModrm op && !isPrefixByte op && !isStringOp op
  | [op, _] => hasModrm op
  | _ => false

/-! ### Encoding -/

/-- A ModRM byte (R217). -/
def modrmByte (mode : Bits2) (reg rm : Bits3) : Byte := mode ++ reg ++ rm

/-- The two bytes of a word, low byte first (R230). -/
def wordBytes (v : Word) : List Byte := [v.extractLsb' 0 8, v.extractLsb' 8 8]

/-- The ModRM byte and displacement of a memory operand (R220, R221). -/
def encMem (reg : Bits3) : MemOp → List Byte
  | .ind b => [modrmByte 0 reg b.code]
  | .direct d => modrmByte 0 reg 6 :: wordBytes d
  | .disp8 b d => [modrmByte 1 reg b.code, d]
  | .disp16 b d => modrmByte 2 reg b.code :: wordBytes d

/-- The ModRM byte and displacement of an r/m operand. -/
def encRm {ρ : Type} (code : ρ → Bits3) (reg : Bits3) : Rm ρ → List Byte
  | .reg r => [modrmByte 3 reg (code r)]
  | .mem m => encMem reg m

/-- The ModRM byte and displacement of a byte r/m operand. -/
def encRm8 (reg : Bits3) (e : Rm Reg8) : List Byte := encRm Reg8.code reg e

/-- The ModRM byte and displacement of a word r/m operand. -/
def encRm16 (reg : Bits3) (e : Rm Reg16) : List Byte := encRm Reg16.code reg e

/-- An opcode byte with a three-bit code in bits 2 to 0 (R210). -/
def opcodeReg (base : Byte) (code : Bits3) : Byte := base ||| code.setWidth 8

/-- An opcode byte with a segment code in bits 4 to 3 (R210). -/
def opcodeSreg (base : Byte) (r : SReg) : Byte := base ||| (r.code.setWidth 8 <<< 3)

/-- The `reg` field that names a segment register, with bit 2 as given (R216). -/
def sregField (hi : Bool) (r : SReg) : Bits3 := BitVec.ofBool hi ++ r.code

/-- The opcode D0 to D3 (R510). -/
def shiftOpcode (byCl wide : Bool) : Byte :=
  0xD0#8 ||| ((BitVec.ofBool byCl).setWidth 8 <<< 1) ||| (BitVec.ofBool wide).setWidth 8

/-- The bytes of a unit (R200). -/
def encode : Instr → List Byte
  | .addEbGb dst src => 0x00#8 :: encRm8 src.code dst
  | .addEwGw dst src => 0x01#8 :: encRm16 src.code dst
  | .addGbEb dst src => 0x02#8 :: encRm8 dst.code src
  | .addGwEw dst src => 0x03#8 :: encRm16 dst.code src
  | .addAlIb imm => [0x04#8, imm]
  | .addAxIw imm => 0x05#8 :: wordBytes imm
  | .addEbIb dst imm => 0x80#8 :: (encRm8 0 dst ++ [imm])
  | .addEwIw dst imm => 0x81#8 :: (encRm16 0 dst ++ wordBytes imm)
  | .addEwIbs dst imm => 0x83#8 :: (encRm16 0 dst ++ [imm])
  | .addEbIbAlias dst imm => 0x82#8 :: (encRm8 0 dst ++ [imm])
  | .orEbGb dst src => 0x08#8 :: encRm8 src.code dst
  | .orEwGw dst src => 0x09#8 :: encRm16 src.code dst
  | .orGbEb dst src => 0x0A#8 :: encRm8 dst.code src
  | .orGwEw dst src => 0x0B#8 :: encRm16 dst.code src
  | .orAlIb imm => [0x0C#8, imm]
  | .orAxIw imm => 0x0D#8 :: wordBytes imm
  | .orEbIb dst imm => 0x80#8 :: (encRm8 1 dst ++ [imm])
  | .orEwIw dst imm => 0x81#8 :: (encRm16 1 dst ++ wordBytes imm)
  | .orEwIbs dst imm => 0x83#8 :: (encRm16 1 dst ++ [imm])
  | .orEbIbAlias dst imm => 0x82#8 :: (encRm8 1 dst ++ [imm])
  | .adcEbGb dst src => 0x10#8 :: encRm8 src.code dst
  | .adcEwGw dst src => 0x11#8 :: encRm16 src.code dst
  | .adcGbEb dst src => 0x12#8 :: encRm8 dst.code src
  | .adcGwEw dst src => 0x13#8 :: encRm16 dst.code src
  | .adcAlIb imm => [0x14#8, imm]
  | .adcAxIw imm => 0x15#8 :: wordBytes imm
  | .adcEbIb dst imm => 0x80#8 :: (encRm8 2 dst ++ [imm])
  | .adcEwIw dst imm => 0x81#8 :: (encRm16 2 dst ++ wordBytes imm)
  | .adcEwIbs dst imm => 0x83#8 :: (encRm16 2 dst ++ [imm])
  | .adcEbIbAlias dst imm => 0x82#8 :: (encRm8 2 dst ++ [imm])
  | .sbbEbGb dst src => 0x18#8 :: encRm8 src.code dst
  | .sbbEwGw dst src => 0x19#8 :: encRm16 src.code dst
  | .sbbGbEb dst src => 0x1A#8 :: encRm8 dst.code src
  | .sbbGwEw dst src => 0x1B#8 :: encRm16 dst.code src
  | .sbbAlIb imm => [0x1C#8, imm]
  | .sbbAxIw imm => 0x1D#8 :: wordBytes imm
  | .sbbEbIb dst imm => 0x80#8 :: (encRm8 3 dst ++ [imm])
  | .sbbEwIw dst imm => 0x81#8 :: (encRm16 3 dst ++ wordBytes imm)
  | .sbbEwIbs dst imm => 0x83#8 :: (encRm16 3 dst ++ [imm])
  | .sbbEbIbAlias dst imm => 0x82#8 :: (encRm8 3 dst ++ [imm])
  | .andEbGb dst src => 0x20#8 :: encRm8 src.code dst
  | .andEwGw dst src => 0x21#8 :: encRm16 src.code dst
  | .andGbEb dst src => 0x22#8 :: encRm8 dst.code src
  | .andGwEw dst src => 0x23#8 :: encRm16 dst.code src
  | .andAlIb imm => [0x24#8, imm]
  | .andAxIw imm => 0x25#8 :: wordBytes imm
  | .andEbIb dst imm => 0x80#8 :: (encRm8 4 dst ++ [imm])
  | .andEwIw dst imm => 0x81#8 :: (encRm16 4 dst ++ wordBytes imm)
  | .andEwIbs dst imm => 0x83#8 :: (encRm16 4 dst ++ [imm])
  | .andEbIbAlias dst imm => 0x82#8 :: (encRm8 4 dst ++ [imm])
  | .subEbGb dst src => 0x28#8 :: encRm8 src.code dst
  | .subEwGw dst src => 0x29#8 :: encRm16 src.code dst
  | .subGbEb dst src => 0x2A#8 :: encRm8 dst.code src
  | .subGwEw dst src => 0x2B#8 :: encRm16 dst.code src
  | .subAlIb imm => [0x2C#8, imm]
  | .subAxIw imm => 0x2D#8 :: wordBytes imm
  | .subEbIb dst imm => 0x80#8 :: (encRm8 5 dst ++ [imm])
  | .subEwIw dst imm => 0x81#8 :: (encRm16 5 dst ++ wordBytes imm)
  | .subEwIbs dst imm => 0x83#8 :: (encRm16 5 dst ++ [imm])
  | .subEbIbAlias dst imm => 0x82#8 :: (encRm8 5 dst ++ [imm])
  | .xorEbGb dst src => 0x30#8 :: encRm8 src.code dst
  | .xorEwGw dst src => 0x31#8 :: encRm16 src.code dst
  | .xorGbEb dst src => 0x32#8 :: encRm8 dst.code src
  | .xorGwEw dst src => 0x33#8 :: encRm16 dst.code src
  | .xorAlIb imm => [0x34#8, imm]
  | .xorAxIw imm => 0x35#8 :: wordBytes imm
  | .xorEbIb dst imm => 0x80#8 :: (encRm8 6 dst ++ [imm])
  | .xorEwIw dst imm => 0x81#8 :: (encRm16 6 dst ++ wordBytes imm)
  | .xorEwIbs dst imm => 0x83#8 :: (encRm16 6 dst ++ [imm])
  | .xorEbIbAlias dst imm => 0x82#8 :: (encRm8 6 dst ++ [imm])
  | .cmpEbGb dst src => 0x38#8 :: encRm8 src.code dst
  | .cmpEwGw dst src => 0x39#8 :: encRm16 src.code dst
  | .cmpGbEb dst src => 0x3A#8 :: encRm8 dst.code src
  | .cmpGwEw dst src => 0x3B#8 :: encRm16 dst.code src
  | .cmpAlIb imm => [0x3C#8, imm]
  | .cmpAxIw imm => 0x3D#8 :: wordBytes imm
  | .cmpEbIb dst imm => 0x80#8 :: (encRm8 7 dst ++ [imm])
  | .cmpEwIw dst imm => 0x81#8 :: (encRm16 7 dst ++ wordBytes imm)
  | .cmpEwIbs dst imm => 0x83#8 :: (encRm16 7 dst ++ [imm])
  | .cmpEbIbAlias dst imm => 0x82#8 :: (encRm8 7 dst ++ [imm])
  | .pushSreg src => [opcodeSreg 0x06#8 src]
  | .pushR16 src => [opcodeReg 0x50#8 src.code]
  | .pushEw src => 0xFF#8 :: encRm16 6 src
  | .pushEwAlias src => 0xFF#8 :: encRm16 7 src
  | .popSreg dst => [opcodeSreg 0x07#8 dst]
  | .popR16 dst => [opcodeReg 0x58#8 dst.code]
  | .popEw dst => 0x8F#8 :: encRm16 0 dst
  | .popEwAlias sel dst => 0x8F#8 :: encRm16 sel dst
  | .xchgEbGb e g => 0x86#8 :: encRm8 g.code e
  | .xchgEwGw e g => 0x87#8 :: encRm16 g.code e
  | .xchgAxR16 r => [opcodeReg 0x90#8 r.code]
  | .movEbGb dst src => 0x88#8 :: encRm8 src.code dst
  | .movEwGw dst src => 0x89#8 :: encRm16 src.code dst
  | .movGbEb dst src => 0x8A#8 :: encRm8 dst.code src
  | .movGwEw dst src => 0x8B#8 :: encRm16 dst.code src
  | .movEwSw dst src => 0x8C#8 :: encRm16 (sregField false src) dst
  | .movEwSwAlias dst src => 0x8C#8 :: encRm16 (sregField true src) dst
  | .movSwEw dst src => 0x8E#8 :: encRm16 (sregField false dst) src
  | .movSwEwAlias dst src => 0x8E#8 :: encRm16 (sregField true dst) src
  | .movCsEw hi mode rm => [0x8E#8, modrmByte mode (sregField hi .cs) rm]
  | .movAlOb off => 0xA0#8 :: wordBytes off
  | .movAxOw off => 0xA1#8 :: wordBytes off
  | .movObAl off => 0xA2#8 :: wordBytes off
  | .movOwAx off => 0xA3#8 :: wordBytes off
  | .movR8Ib dst imm => [opcodeReg 0xB0#8 dst.code, imm]
  | .movR16Iw dst imm => opcodeReg 0xB8#8 dst.code :: wordBytes imm
  | .movEbIb dst imm => 0xC6#8 :: (encRm8 0 dst ++ [imm])
  | .movEwIw dst imm => 0xC7#8 :: (encRm16 0 dst ++ wordBytes imm)
  | .movEbIbAlias sel dst imm => 0xC6#8 :: (encRm8 sel dst ++ [imm])
  | .movEwIwAlias sel dst imm => 0xC7#8 :: (encRm16 sel dst ++ wordBytes imm)
  | .lea dst src => 0x8D#8 :: encMem dst.code src
  | .leaReg g e => [0x8D#8, modrmByte 3 g.code e.code]
  | .les dst src => 0xC4#8 :: encMem dst.code src
  | .lesReg g e => [0xC4#8, modrmByte 3 g.code e.code]
  | .lds dst src => 0xC5#8 :: encMem dst.code src
  | .ldsReg g e => [0xC5#8, modrmByte 3 g.code e.code]
  | .inAlIb port => [0xE4#8, port]
  | .inAxIb port => [0xE5#8, port]
  | .outIbAl port => [0xE6#8, port]
  | .outIbAx port => [0xE7#8, port]
  | .incR16 dst => [opcodeReg 0x40#8 dst.code]
  | .incEb dst => 0xFE#8 :: encRm8 0 dst
  | .incEw dst => 0xFF#8 :: encRm16 0 dst
  | .decR16 dst => [opcodeReg 0x48#8 dst.code]
  | .decEb dst => 0xFE#8 :: encRm8 1 dst
  | .decEw dst => 0xFF#8 :: encRm16 1 dst
  | .notEb dst => 0xF6#8 :: encRm8 2 dst
  | .notEw dst => 0xF7#8 :: encRm16 2 dst
  | .negEb dst => 0xF6#8 :: encRm8 3 dst
  | .negEw dst => 0xF7#8 :: encRm16 3 dst
  | .mulEb src => 0xF6#8 :: encRm8 4 src
  | .mulEw src => 0xF7#8 :: encRm16 4 src
  | .imulEb src => 0xF6#8 :: encRm8 5 src
  | .imulEw src => 0xF7#8 :: encRm16 5 src
  | .divEb src => 0xF6#8 :: encRm8 6 src
  | .divEw src => 0xF7#8 :: encRm16 6 src
  | .idivEb src => 0xF6#8 :: encRm8 7 src
  | .idivEw src => 0xF7#8 :: encRm16 7 src
  | .aamBase base => [0xD4#8, base]
  | .aadBase base => [0xD5#8, base]
  | .testEbGb e g => 0x84#8 :: encRm8 g.code e
  | .testEwGw e g => 0x85#8 :: encRm16 g.code e
  | .testAlIb imm => [0xA8#8, imm]
  | .testAxIw imm => 0xA9#8 :: wordBytes imm
  | .testEbIb e imm => 0xF6#8 :: (encRm8 0 e ++ [imm])
  | .testEwIw e imm => 0xF7#8 :: (encRm16 0 e ++ wordBytes imm)
  | .testEbIbAlias e imm => 0xF6#8 :: (encRm8 1 e ++ [imm])
  | .testEwIwAlias e imm => 0xF7#8 :: (encRm16 1 e ++ wordBytes imm)
  | .rolEb1 dst => 0xD0#8 :: encRm8 0 dst
  | .rolEw1 dst => 0xD1#8 :: encRm16 0 dst
  | .rolEbCl dst => 0xD2#8 :: encRm8 0 dst
  | .rolEwCl dst => 0xD3#8 :: encRm16 0 dst
  | .rorEb1 dst => 0xD0#8 :: encRm8 1 dst
  | .rorEw1 dst => 0xD1#8 :: encRm16 1 dst
  | .rorEbCl dst => 0xD2#8 :: encRm8 1 dst
  | .rorEwCl dst => 0xD3#8 :: encRm16 1 dst
  | .rclEb1 dst => 0xD0#8 :: encRm8 2 dst
  | .rclEw1 dst => 0xD1#8 :: encRm16 2 dst
  | .rclEbCl dst => 0xD2#8 :: encRm8 2 dst
  | .rclEwCl dst => 0xD3#8 :: encRm16 2 dst
  | .rcrEb1 dst => 0xD0#8 :: encRm8 3 dst
  | .rcrEw1 dst => 0xD1#8 :: encRm16 3 dst
  | .rcrEbCl dst => 0xD2#8 :: encRm8 3 dst
  | .rcrEwCl dst => 0xD3#8 :: encRm16 3 dst
  | .shlEb1 dst => 0xD0#8 :: encRm8 4 dst
  | .shlEw1 dst => 0xD1#8 :: encRm16 4 dst
  | .shlEbCl dst => 0xD2#8 :: encRm8 4 dst
  | .shlEwCl dst => 0xD3#8 :: encRm16 4 dst
  | .shrEb1 dst => 0xD0#8 :: encRm8 5 dst
  | .shrEw1 dst => 0xD1#8 :: encRm16 5 dst
  | .shrEbCl dst => 0xD2#8 :: encRm8 5 dst
  | .shrEwCl dst => 0xD3#8 :: encRm16 5 dst
  | .sarEb1 dst => 0xD0#8 :: encRm8 7 dst
  | .sarEw1 dst => 0xD1#8 :: encRm16 7 dst
  | .sarEbCl dst => 0xD2#8 :: encRm8 7 dst
  | .sarEwCl dst => 0xD3#8 :: encRm16 7 dst
  | .shiftUndoc6 byCl wide mode rm => [shiftOpcode byCl wide, modrmByte mode 6 rm]
  | .jo disp => [0x70#8, disp]
  | .jno disp => [0x71#8, disp]
  | .jb disp => [0x72#8, disp]
  | .jnb disp => [0x73#8, disp]
  | .jz disp => [0x74#8, disp]
  | .jnz disp => [0x75#8, disp]
  | .jbe disp => [0x76#8, disp]
  | .ja disp => [0x77#8, disp]
  | .js disp => [0x78#8, disp]
  | .jns disp => [0x79#8, disp]
  | .jp disp => [0x7A#8, disp]
  | .jnp disp => [0x7B#8, disp]
  | .jl disp => [0x7C#8, disp]
  | .jge disp => [0x7D#8, disp]
  | .jle disp => [0x7E#8, disp]
  | .jg disp => [0x7F#8, disp]
  | .joAlias disp => [0x60#8, disp]
  | .jnoAlias disp => [0x61#8, disp]
  | .jbAlias disp => [0x62#8, disp]
  | .jnbAlias disp => [0x63#8, disp]
  | .jzAlias disp => [0x64#8, disp]
  | .jnzAlias disp => [0x65#8, disp]
  | .jbeAlias disp => [0x66#8, disp]
  | .jaAlias disp => [0x67#8, disp]
  | .jsAlias disp => [0x68#8, disp]
  | .jnsAlias disp => [0x69#8, disp]
  | .jpAlias disp => [0x6A#8, disp]
  | .jnpAlias disp => [0x6B#8, disp]
  | .jlAlias disp => [0x6C#8, disp]
  | .jgeAlias disp => [0x6D#8, disp]
  | .jleAlias disp => [0x6E#8, disp]
  | .jgAlias disp => [0x6F#8, disp]
  | .jmpJb disp => [0xEB#8, disp]
  | .jmpJw disp => 0xE9#8 :: wordBytes disp
  | .jmpEw target => 0xFF#8 :: encRm16 4 target
  | .jmpAp off sel => 0xEA#8 :: (wordBytes off ++ wordBytes sel)
  | .jmpMp ptr => 0xFF#8 :: encMem 5 ptr
  | .jmpFarReg e => [0xFF#8, modrmByte 3 5 e.code]
  | .callJw disp => 0xE8#8 :: wordBytes disp
  | .callEw target => 0xFF#8 :: encRm16 2 target
  | .callAp off sel => 0x9A#8 :: (wordBytes off ++ wordBytes sel)
  | .callMp ptr => 0xFF#8 :: encMem 3 ptr
  | .callFarReg e => [0xFF#8, modrmByte 3 3 e.code]
  | .retIw release => 0xC2#8 :: wordBytes release
  | .retIwAlias release => 0xC0#8 :: wordBytes release
  | .retfIw release => 0xCA#8 :: wordBytes release
  | .retfIwAlias release => 0xC8#8 :: wordBytes release
  | .loopne disp => [0xE0#8, disp]
  | .loope disp => [0xE1#8, disp]
  | .loop disp => [0xE2#8, disp]
  | .jcxz disp => [0xE3#8, disp]
  | .int vector => [0xCD#8, vector]
  | .esc op reg e => opcodeReg 0xD8#8 op :: encRm16 reg e
  | .feUndoc2 mode rm => [0xFE#8, modrmByte mode 2 rm]
  | .feUndoc3 mode rm => [0xFE#8, modrmByte mode 3 rm]
  | .feUndoc4 mode rm => [0xFE#8, modrmByte mode 4 rm]
  | .feUndoc5 mode rm => [0xFE#8, modrmByte mode 5 rm]
  | .feUndoc6 mode rm => [0xFE#8, modrmByte mode 6 rm]
  | .feUndoc7 mode rm => [0xFE#8, modrmByte mode 7 rm]
  | .esPrefix => [0x26#8]
  | .csPrefix => [0x2E#8]
  | .ssPrefix => [0x36#8]
  | .dsPrefix => [0x3E#8]
  | .lock => [0xF0#8]
  | .lockAlias => [0xF1#8]
  | .repne => [0xF2#8]
  | .repe => [0xF3#8]
  | .popCs => [0x0F#8]
  | .xlat => [0xD7#8]
  | .pushf => [0x9C#8]
  | .popf => [0x9D#8]
  | .sahf => [0x9E#8]
  | .lahf => [0x9F#8]
  | .inAlDx => [0xEC#8]
  | .inAxDx => [0xED#8]
  | .outDxAl => [0xEE#8]
  | .outDxAx => [0xEF#8]
  | .daa => [0x27#8]
  | .das => [0x2F#8]
  | .aaa => [0x37#8]
  | .aas => [0x3F#8]
  | .aam => [0xD4#8, 0x0A#8]
  | .aad => [0xD5#8, 0x0A#8]
  | .cbw => [0x98#8]
  | .cwd => [0x99#8]
  | .movsb => [0xA4#8]
  | .movsw => [0xA5#8]
  | .cmpsb => [0xA6#8]
  | .cmpsw => [0xA7#8]
  | .stosb => [0xAA#8]
  | .stosw => [0xAB#8]
  | .lodsb => [0xAC#8]
  | .lodsw => [0xAD#8]
  | .scasb => [0xAE#8]
  | .scasw => [0xAF#8]
  | .ret => [0xC3#8]
  | .retAlias => [0xC1#8]
  | .retf => [0xCB#8]
  | .retfAlias => [0xC9#8]
  | .int3 => [0xCC#8]
  | .into => [0xCE#8]
  | .iret => [0xCF#8]
  | .clc => [0xF8#8]
  | .stc => [0xF9#8]
  | .cmc => [0xF5#8]
  | .cld => [0xFC#8]
  | .std => [0xFD#8]
  | .cli => [0xFA#8]
  | .sti => [0xFB#8]
  | .hlt => [0xF4#8]
  | .wait => [0x9B#8]
  | .nop => [0x90#8]
  | .salc => [0xD6#8]

/-! ### Which units are undocumented -/

/-- The undocumented encoding of R240 that a unit is, if it is one. -/
def Instr.undoc : Instr → Option UndocId
  | .addEbGb _ _ => none
  | .addEwGw _ _ => none
  | .addGbEb _ _ => none
  | .addGwEw _ _ => none
  | .addAlIb _ => none
  | .addAxIw _ => none
  | .addEbIb _ _ => none
  | .addEwIw _ _ => none
  | .addEwIbs _ _ => none
  | .addEbIbAlias _ _ => some .u2
  | .orEbGb _ _ => none
  | .orEwGw _ _ => none
  | .orGbEb _ _ => none
  | .orGwEw _ _ => none
  | .orAlIb _ => none
  | .orAxIw _ => none
  | .orEbIb _ _ => none
  | .orEwIw _ _ => none
  | .orEwIbs _ _ => some .u3
  | .orEbIbAlias _ _ => some .u2
  | .adcEbGb _ _ => none
  | .adcEwGw _ _ => none
  | .adcGbEb _ _ => none
  | .adcGwEw _ _ => none
  | .adcAlIb _ => none
  | .adcAxIw _ => none
  | .adcEbIb _ _ => none
  | .adcEwIw _ _ => none
  | .adcEwIbs _ _ => none
  | .adcEbIbAlias _ _ => some .u2
  | .sbbEbGb _ _ => none
  | .sbbEwGw _ _ => none
  | .sbbGbEb _ _ => none
  | .sbbGwEw _ _ => none
  | .sbbAlIb _ => none
  | .sbbAxIw _ => none
  | .sbbEbIb _ _ => none
  | .sbbEwIw _ _ => none
  | .sbbEwIbs _ _ => none
  | .sbbEbIbAlias _ _ => some .u2
  | .andEbGb _ _ => none
  | .andEwGw _ _ => none
  | .andGbEb _ _ => none
  | .andGwEw _ _ => none
  | .andAlIb _ => none
  | .andAxIw _ => none
  | .andEbIb _ _ => none
  | .andEwIw _ _ => none
  | .andEwIbs _ _ => some .u3
  | .andEbIbAlias _ _ => some .u2
  | .subEbGb _ _ => none
  | .subEwGw _ _ => none
  | .subGbEb _ _ => none
  | .subGwEw _ _ => none
  | .subAlIb _ => none
  | .subAxIw _ => none
  | .subEbIb _ _ => none
  | .subEwIw _ _ => none
  | .subEwIbs _ _ => none
  | .subEbIbAlias _ _ => some .u2
  | .xorEbGb _ _ => none
  | .xorEwGw _ _ => none
  | .xorGbEb _ _ => none
  | .xorGwEw _ _ => none
  | .xorAlIb _ => none
  | .xorAxIw _ => none
  | .xorEbIb _ _ => none
  | .xorEwIw _ _ => none
  | .xorEwIbs _ _ => some .u3
  | .xorEbIbAlias _ _ => some .u2
  | .cmpEbGb _ _ => none
  | .cmpEwGw _ _ => none
  | .cmpGbEb _ _ => none
  | .cmpGwEw _ _ => none
  | .cmpAlIb _ => none
  | .cmpAxIw _ => none
  | .cmpEbIb _ _ => none
  | .cmpEwIw _ _ => none
  | .cmpEwIbs _ _ => none
  | .cmpEbIbAlias _ _ => some .u2
  | .pushSreg _ => none
  | .pushR16 _ => none
  | .pushEw _ => none
  | .pushEwAlias _ => some .u13
  | .popSreg _ => none
  | .popR16 _ => none
  | .popEw _ => none
  | .popEwAlias _ _ => some .u10
  | .xchgEbGb _ _ => none
  | .xchgEwGw _ _ => none
  | .xchgAxR16 _ => none
  | .movEbGb _ _ => none
  | .movEwGw _ _ => none
  | .movGbEb _ _ => none
  | .movGwEw _ _ => none
  | .movEwSw _ _ => none
  | .movEwSwAlias _ _ => some .u5
  | .movSwEw _ _ => none
  | .movSwEwAlias _ _ => some .u6
  | .movCsEw _ _ _ => some .u7
  | .movAlOb _ => none
  | .movAxOw _ => none
  | .movObAl _ => none
  | .movOwAx _ => none
  | .movR8Ib _ _ => none
  | .movR16Iw _ _ => none
  | .movEbIb _ _ => none
  | .movEwIw _ _ => none
  | .movEbIbAlias _ _ _ => some .u10
  | .movEwIwAlias _ _ _ => some .u10
  | .lea _ _ => none
  | .leaReg _ _ => some .u8
  | .les _ _ => none
  | .lesReg _ _ => some .u8
  | .lds _ _ => none
  | .ldsReg _ _ => some .u8
  | .inAlIb _ => none
  | .inAxIb _ => none
  | .outIbAl _ => none
  | .outIbAx _ => none
  | .incR16 _ => none
  | .incEb _ => none
  | .incEw _ => none
  | .decR16 _ => none
  | .decEb _ => none
  | .decEw _ => none
  | .notEb _ => none
  | .notEw _ => none
  | .negEb _ => none
  | .negEw _ => none
  | .mulEb _ => none
  | .mulEw _ => none
  | .imulEb _ => none
  | .imulEw _ => none
  | .divEb _ => none
  | .divEw _ => none
  | .idivEb _ => none
  | .idivEw _ => none
  | .aamBase _ => some .u16
  | .aadBase _ => some .u16
  | .testEbGb _ _ => none
  | .testEwGw _ _ => none
  | .testAlIb _ => none
  | .testAxIw _ => none
  | .testEbIb _ _ => none
  | .testEwIw _ _ => none
  | .testEbIbAlias _ _ => some .u11
  | .testEwIwAlias _ _ => some .u11
  | .rolEb1 _ => none
  | .rolEw1 _ => none
  | .rolEbCl _ => none
  | .rolEwCl _ => none
  | .rorEb1 _ => none
  | .rorEw1 _ => none
  | .rorEbCl _ => none
  | .rorEwCl _ => none
  | .rclEb1 _ => none
  | .rclEw1 _ => none
  | .rclEbCl _ => none
  | .rclEwCl _ => none
  | .rcrEb1 _ => none
  | .rcrEw1 _ => none
  | .rcrEbCl _ => none
  | .rcrEwCl _ => none
  | .shlEb1 _ => none
  | .shlEw1 _ => none
  | .shlEbCl _ => none
  | .shlEwCl _ => none
  | .shrEb1 _ => none
  | .shrEw1 _ => none
  | .shrEbCl _ => none
  | .shrEwCl _ => none
  | .sarEb1 _ => none
  | .sarEw1 _ => none
  | .sarEbCl _ => none
  | .sarEwCl _ => none
  | .shiftUndoc6 _ _ _ _ => some .u17
  | .jo _ => none
  | .jno _ => none
  | .jb _ => none
  | .jnb _ => none
  | .jz _ => none
  | .jnz _ => none
  | .jbe _ => none
  | .ja _ => none
  | .js _ => none
  | .jns _ => none
  | .jp _ => none
  | .jnp _ => none
  | .jl _ => none
  | .jge _ => none
  | .jle _ => none
  | .jg _ => none
  | .joAlias _ => some .u1
  | .jnoAlias _ => some .u1
  | .jbAlias _ => some .u1
  | .jnbAlias _ => some .u1
  | .jzAlias _ => some .u1
  | .jnzAlias _ => some .u1
  | .jbeAlias _ => some .u1
  | .jaAlias _ => some .u1
  | .jsAlias _ => some .u1
  | .jnsAlias _ => some .u1
  | .jpAlias _ => some .u1
  | .jnpAlias _ => some .u1
  | .jlAlias _ => some .u1
  | .jgeAlias _ => some .u1
  | .jleAlias _ => some .u1
  | .jgAlias _ => some .u1
  | .jmpJb _ => none
  | .jmpJw _ => none
  | .jmpEw _ => none
  | .jmpAp _ _ => none
  | .jmpMp _ => none
  | .jmpFarReg _ => some .u9
  | .callJw _ => none
  | .callEw _ => none
  | .callAp _ _ => none
  | .callMp _ => none
  | .callFarReg _ => some .u9
  | .retIw _ => none
  | .retIwAlias _ => some .u4
  | .retfIw _ => none
  | .retfIwAlias _ => some .u4
  | .loopne _ => none
  | .loope _ => none
  | .loop _ => none
  | .jcxz _ => none
  | .int _ => none
  | .esc _ _ _ => none
  | .feUndoc2 _ _ => some .u18
  | .feUndoc3 _ _ => some .u18
  | .feUndoc4 _ _ => some .u18
  | .feUndoc5 _ _ => some .u18
  | .feUndoc6 _ _ => some .u18
  | .feUndoc7 _ _ => some .u18
  | .esPrefix => none
  | .csPrefix => none
  | .ssPrefix => none
  | .dsPrefix => none
  | .lock => none
  | .lockAlias => some .u12
  | .repne => none
  | .repe => none
  | .popCs => some .u7
  | .xlat => none
  | .pushf => none
  | .popf => none
  | .sahf => none
  | .lahf => none
  | .inAlDx => none
  | .inAxDx => none
  | .outDxAl => none
  | .outDxAx => none
  | .daa => none
  | .das => none
  | .aaa => none
  | .aas => none
  | .aam => none
  | .aad => none
  | .cbw => none
  | .cwd => none
  | .movsb => none
  | .movsw => none
  | .cmpsb => none
  | .cmpsw => none
  | .stosb => none
  | .stosw => none
  | .lodsb => none
  | .lodsw => none
  | .scasb => none
  | .scasw => none
  | .ret => none
  | .retAlias => some .u4
  | .retf => none
  | .retfAlias => some .u4
  | .int3 => none
  | .into => none
  | .iret => none
  | .clc => none
  | .stc => none
  | .cmc => none
  | .cld => none
  | .std => none
  | .cli => none
  | .sti => none
  | .hlt => none
  | .wait => none
  | .nop => none
  | .salc => some .u14

/-! ### The words of the opcode table -/

/-- The bytes of a number of `n` bytes, the first the most significant: how R236 numbers the bits of
`match` and `mask` (log entry 10). -/
def tableBytes : Nat → Nat → List Byte
  | 0, _ => []
  | n + 1, w => BitVec.ofNat 8 (w / 256 ^ n) :: tableBytes n w

/-- The bytes of an opcode-table row's word, then zeros, up to the longest unit (6 bytes, R245). -/
def tableWordBytes (nbits w : Nat) : List Byte :=
  (tableBytes (nbits / 8) w ++ [0, 0, 0, 0, 0, 0]).take 6

/-- The unit that the decoder reads from an opcode-table row's word. -/
def decodeTableWord (nbits w : Nat) : Option Instr :=
  match decode (tableWordBytes nbits w) with
  | .done i _ => some i
  | .more => none

end Sys2Proof
end

