-- ==== Sys2Proof/Machine/Fetch.lean ====
section
/-! DEFINITION. What the Execution Engine does between two units of the instruction stream: the boundary
algorithm and the recognition of interrupts (60_exceptions.md R810 to R816), halt and WAIT, and the
fetch and decode loop (30_encoding.md R201). -/

namespace Sys2Proof.Machine

/-- What a step does next: run a unit that has been fetched and decoded, or answer at once. -/
inductive Next where
  | run (i : Instr) (s : State)
  | answer (r : Result)

/-- Take the next byte from the queue once there is one: IP is the offset of the next byte to take, and the
byte is remembered as one of the instruction's (R56, R64, R201). -/
def takeByte : Nat → EU Byte
  | 0 => throw .timeout
  | n + 1 => do
    let b ← readS State.biu
    match b.queue with
    | [] => do
      passTick
      takeByte n
    | b :: rest => settle b fun b => do
      modifyS fun s =>
        { s with
          biu := { s.biu with queue := rest }
          cpu := { s.cpu with ip := s.cpu.ip + 1 }
          eu := { s.eu with fetched := s.eu.fetched ++ [b] } }
      pure b

/-- `FetchByte()` (R13): block while the queue is empty, then take a byte. -/
def fetchByte : EU Byte := do
  takeByte (← readS tickBound)

/-- Whether the bytes of the unit so far identify an encoding that must not run: an undocumented one that is
not admitted, or a repeat prefix before another opcode (R201, R240 U15). -/
def mustFault (s : State) (bytes : List Byte) : Bool :=
  (match undocOf bytes with
    | some u => !admits s.params u
    | none => false) ||
  (refusesRep bytes && s.eu.rep != .none && !admits s.params .u15)

/-- An admitted U15: the repeat prefix is ignored (R201). -/
def dropRep (bytes : List Byte) (e : Eu) : Eu := if refusesRep bytes then { e with rep := .none } else e

/-- Fetch and decode one unit, `bytes` being those taken so far; `none` when a DecodeFault has been recorded
(R201). A unit has at most six bytes (R245). -/
def fetchUnit : Nat → List Byte → EU (Option Instr)
  | 0, _ => throw .timeout
  | n + 1, bytes => do
    let b ← fetchByte
    let s ← readS id
    if mustFault s (bytes ++ [b]) then do
      modifyS faultedState
      pure none
    else do
      modifyEu (dropRep (bytes ++ [b]))
      match decode (bytes ++ [b]) with
      | .done i _ => pure (some i)
      | .more => fetchUnit n (bytes ++ [b])

/-- The next unit of the instruction stream. -/
def fetchNext (s : State) : Next :=
  match fetchUnit 6 [] s with
  | .ok (some i) t => .run i (beginWork (.unit i) t)
  | .ok none t => .answer (.next t)
  | .error .reset t => .answer (.next t)
  | .error .frozen t => .answer (.next t)
  | .error .timeout _ => .answer (.fault .busTimeout)

/-- The start of an instruction: `trapArmed <- TF` and the start of `Decode()` (R810, R201). -/
def beginInstr (s : State) : State :=
  { s with
    eu := { clearPrefixes s.cpu.ip s.eu with
      trapArmed := s.cpu.flags.tf, selfEntered := false, shadow := false } }

/-- An interrupt entry at a boundary (R810): the halt state ends, and the machine is at a boundary again. -/
def boundaryEntry (w : Work) (vector : EU Byte) (s : State) : Result :=
  runEU (do
    modifyEu fun e => { e with halted := false }
    let n ← vector
    enterAtIp n
    endInstr) (beginWork w s)

/-- One tick in which the Execution Engine does nothing. -/
def idleTick (s : State) : Result := .next (nextTick s)

/-- While halted and nothing is recognised (R737, R815): a tick passes, unless the run has ended (R975 (c)).
DESIGN CHOICE (log entry 8): the end waits until the bus is passive and no request is pending, a condition that
R975 does not name, so that the halt transaction in its `clear` phase, or a HOLD still granted, is over in the
final state. -/
def haltStep (s : State) : Result :=
  if s.env.inputs = [] ∧ s.biu.bus = .passive ∧ s.biu.euReq = none ∧ s.cpu.flags.intf = false ∧
      s.nmiLatch = false then
    .fault .haltedForGood
  else idleTick s

/-- Nothing is recognised at the boundary: stay halted, or begin the next instruction (R810). -/
def proceed (s : State) : Next := if s.eu.halted then .answer (haltStep s) else fetchNext (beginInstr s)

/-- The boundary algorithm (R810, R812, R813, R815). It runs with the latches as they stand, before the tick in
which the Execution Engine waits for its next byte. DESIGN CHOICE (log entry 33): after RESET it therefore
finds nothing, as R950 says, even when that first tick brings an NMI edge, which R138 and R810 would find; the
boundary after the first instruction takes it. -/
def boundary (s : State) : Next :=
  if s.eu.shadow then proceed { s with eu := { s.eu with shadow := false } }
  else if s.nmiLatch then .answer (boundaryEntry .nmi (pure 2) { s with nmiLatch := false })
  else if interruptPending s then .answer (boundaryEntry .intr intaSequence s)
  else if s.eu.trapArmed && !s.eu.selfEntered then .answer (boundaryEntry .trap (pure 1) s)
  else proceed s

/-- One tick of a waiting WAIT (R738, R816). -/
def waitStep (s : State) : Result :=
  let t := nextTick s
  if (nextInput s).reset || frozen t then .next t
  else if interruptPending t then
    .next { t with
      cpu := { t.cpu with ip := t.eu.start }
      eu := { clearPrefixes t.eu.start t.eu with waiting := false } }
  else if t.env.test then runEU endInstr { t with eu := { t.eu with waiting := false } }
  else .next t

/-- A CPU that takes no step (R803, R980): ticks pass while the environment lists inputs; after the last,
the run has ended (R975 (a), (b)). -/
def frozenStep (s : State) : Result :=
  if s.env.inputs = [] then
    match s.eu.faulted with
    | some r => .fault (.decodeFault r.cs r.ip r.bytes)
    | none => .fault .stopped
  else idleTick s

/-- What the machine does next. -/
def nextUnit (s : State) : Next :=
  if frozen s then .answer (frozenStep s)
  else if s.eu.waiting then .answer (waitStep s)
  else if s.eu.fetched = [] then boundary s
  else fetchNext s

/-- Store the bytes of a unit from `seg:off` upward (R121, R122). -/
def storeBytes (seg : Word) : Word → List Byte → Mem → Mem
  | _, [], m => m
  | off, b :: rest, m => storeBytes seg (off + 1) rest (memWrite m (phys seg off) b)

/-- The state with a unit stored where the next one is fetched, nothing prefetched, and the machine at a
boundary (log entry 24). -/
def placeUnit (s : State) (bytes : List Byte) : State :=
  { s with
    mem := storeBytes s.cpu.cs s.cpu.ip bytes s.mem
    biu := { s.biu with queue := [], bus := .passive, euReq := none }
    eu := { s.eu with fetched := [] } }

end Sys2Proof.Machine
end

