-- ==== Sys2Proof/Machine/Step.lean ====
section
/-! DEFINITION. One step of the machine: what the Execution Engine does between two units, or one unit of
the instruction stream (00_scope.md R12; 60_exceptions.md R810); and the place where a unit is put so that
the next step runs it. -/

namespace Sys2Proof.Machine

/-- One step (log entry 1). -/
def step (s : State) : Host.Outcome State Fault Refusal :=
  match nextUnit s with
  | .run i t => exec i t
  | .answer r => r

/-- The state with a row of the opcode table stored where `step` fetches next (log entry 24). -/
def State.withFetchWord (s : State) (nbits w : Nat) : State := placeUnit s (tableWordBytes nbits w)

end Sys2Proof.Machine
end

