-- ==== Sys2Proof/Safety.lean ====
section
/-! DEFINITION. The terms in which claims are stated: what a well-formed machine is (`Inv`), when an
instruction runs undisturbed (`Ready`), and the view of a state that holds what instructions act on, with
the instruction-level operations on it. The view leaves out what the bus and the prefetcher change by
themselves: the queue, the bus phase, the ticks, the draws, the NMI latch and the BusFault record; and the
position inside the work in progress, which is none at its end. -/

namespace Sys2Proof.Machine

/-! ### Well-formed machines -/

/-- The bus carries nothing but an instruction fetch of the prefetcher or a transaction in its `clear` phase
(R65, R130). -/
def busQuiet (b : Bus) : Bool :=
  match b with
  | .busy t =>
    decide (t.phase = .clear) || (decide (t.owner = .prefetch) && decide (t.kind = .instructionFetch))
  | .passive => true
  | .held => true

/-- The Execution Engine has no request pending and none in flight (R66, R137). -/
def EuIdle (s : State) : Prop := s.biu.euReq = none ∧ busQuiet s.biu.bus = true

/-- The queue never exceeds its depth, even when the fetch in flight completes (R64, R135); HLDA is 1 exactly
while the bus is held (R66); a transaction record is never in the phase `none` (R65). -/
def BiuWf (b : Biu) : Prop :=
  b.queue.length ≤ Config.queueDepth ∧
  (match b.bus with
    | .busy t =>
      b.hlda = false ∧ t.phase ≠ .none ∧
        (t.owner = .prefetch → t.phase ≠ .clear → t.stale = false → b.queue.length < Config.queueDepth)
    | .passive => b.hlda = false
    | .held => b.hlda = true)

/-- The invariant of the machine between two steps: storage is canonical, the Bus Cycle Engine is well
formed, and unless the CPU is frozen the Execution Engine is idle, the bus is unlocked, a halted CPU is at an
instruction boundary, and no piece of work is in progress, so that nothing of one instruction's intermediate
values survives into the next (R67). -/
def Inv (s : State) : Prop :=
  memWf s.mem = true ∧ memWf s.ports = true ∧ BiuWf s.biu ∧
  (frozen s = false → EuIdle s ∧ s.biu.lockOut = false ∧ (s.eu.halted = true → s.eu.fetched = []) ∧
    s.progress = none)

/-! ### Undisturbed execution -/

/-- The environment neither resets nor stops the CPU, sends no IRQ and does nothing on a bus it holds; NMI,
HOLD and TEST are free. -/
def Calm (inputs : List TickIn) : Prop :=
  ∀ i ∈ inputs, i.reset = false ∧ i.stop = false ∧ i.irq = [] ∧ i.dma = []

/-- The CPU runs, its Execution Engine is idle, and the coming inputs do not disturb it. -/
def Ready (s : State) : Prop := frozen s = false ∧ EuIdle s ∧ Calm s.env.inputs

/-- No NMI is pending and none can come: none is latched or driven, and no access to memory can be a
BusFault that latches one. -/
def NmiQuiet (s : State) : Prop :=
  s.nmiLatch = false ∧ (∀ i ∈ s.env.inputs, i.nmi = false) ∧
  (s.params.busFaultNmi = false ∨ ∀ a, a < 0x100000 → regionKind s.params.memMap a ≠ none)

/-- No interrupt can become pending before the next instruction that sets IF or accesses a port. -/
def Unsignalled (s : State) : Prop := NmiQuiet s ∧ s.cpu.flags.intf = false

/-! ### The view -/

/-- What instructions act on. -/
structure View where
  cpu : Cpu
  eu : Eu
  mem : Mem
  ports : Mem
  pics : Pics
  deliveries : List Delivery
  params : Params
  deriving DecidableEq, Repr

/-- The view of a state. -/
def view (s : State) : View := ⟨s.cpu, s.eu, s.mem, s.ports, s.pics, s.deliveries, s.params⟩

/-- Change the register file of a view. -/
def View.setCpu (f : Cpu → Cpu) (v : View) : View := { v with cpu := f v.cpu }

/-- Change the flags of a view. -/
def View.setFlags (f : Flags → Flags) (v : View) : View := v.setCpu fun c => { c with flags := f c.flags }

/-- Change the Execution Engine's own state in a view. -/
def View.setEu (f : Eu → Eu) (v : View) : View := { v with eu := f v.eu }

/-- Set the instruction pointer of a view. -/
def View.setIp (ip : Word) (v : View) : View := v.setCpu fun c => { c with ip := ip }

/-- The end of an instruction: no prefix is in force and the next one starts at IP (R68). -/
def View.done (v : View) : View := { v with eu := clearPrefixes v.cpu.ip v.eu }

/-- RAM or ROM stands at a physical address: a read gives the byte stored there (R123). -/
def Backed (p : Params) (a : Nat) : Prop :=
  regionKind p.memMap a = some .ram ∨ regionKind p.memMap a = some .rom

/-- RAM stands at a physical address: a write stores the byte there (R123). -/
def InRam (p : Params) (a : Nat) : Prop := regionKind p.memMap a = some .ram

/-- `b` is the byte that a read of `seg:off` gives: the stored one where RAM or ROM stands there, any byte
elsewhere (R123, R125). -/
def View.Holds8 (v : View) (seg off : Word) (b : Byte) : Prop :=
  Backed v.params (phys seg off) → b = memRead v.mem (phys seg off)

/-- `w` is the word that a read of `seg:off` gives, low byte first, the second byte at off + 1 mod 2^16
(R122, R127). -/
def View.Holds16 (v : View) (seg off : Word) (w : Word) : Prop :=
  v.Holds8 seg off (loByte w) ∧ v.Holds8 seg (off + 1) (hiByte w)

/-- The view after a byte is written to `seg:off` (R123). -/
def View.store8 (v : View) (seg off : Word) (b : Byte) : View :=
  match regionKind v.params.memMap (phys seg off) with
  | some .ram => { v with mem := memWrite v.mem (phys seg off) b }
  | some .rom => v
  | some .device => { v with deliveries := v.deliveries ++ [⟨.memory, phys seg off, b⟩] }
  | none => v

/-- The view after a word is written to `seg:off` (R122, R127). -/
def View.store16 (v : View) (seg off : Word) (w : Word) : View :=
  (v.store8 seg off (loByte w)).store8 seg (off + 1) (hiByte w)

/-- `b` is the byte a place holds. -/
def View.Value8 (v : View) (p : Place Reg8) (b : Byte) : Prop :=
  match p with
  | .reg r => b = reg8 v.cpu r
  | .mem seg off => v.Holds8 seg off b

/-- `w` is the word a place holds. -/
def View.Value16 (v : View) (p : Place Reg16) (w : Word) : Prop :=
  match p with
  | .reg r => w = reg16 v.cpu r
  | .mem seg off => v.Holds16 seg off w

/-- The view after a byte is written to a place (R227). -/
def View.write8 (v : View) (p : Place Reg8) (b : Byte) : View :=
  match p with
  | .reg r => v.setCpu (setReg8 r b)
  | .mem seg off => v.store8 seg off b

/-- The view after a word is written to a place (R227). -/
def View.write16 (v : View) (p : Place Reg16) (w : Word) : View :=
  match p with
  | .reg r => v.setCpu (setReg16 r w)
  | .mem seg off => v.store16 seg off w

/-- The view after `Push(w)` (R14). -/
def View.push (v : View) (w : Word) : View :=
  (v.setCpu fun c => { c with sp := c.sp - 2 }).store16 v.cpu.ss (v.cpu.sp - 2) w

/-- `w` is the word that `Pop()` gives (R14). -/
def View.Top (v : View) (w : Word) : Prop := v.Holds16 v.cpu.ss v.cpu.sp w

/-- SP after words have been popped or released. -/
def View.addSp (v : View) (n : Word) : View := v.setCpu fun c => { c with sp := c.sp + n }

/-- Jump within CS, or far (R14). -/
def View.jumpFar (v : View) (seg off : Word) : View := v.setCpu fun c => { c with cs := seg, ip := off }

/-- `InterruptEntry` up to its vector read: FLAGS, CS and the return offset are pushed and TF and IF are
cleared (R820). -/
def View.enterFrame (v : View) (ret : Word) : View :=
  (((({ v with eu := { v.eu with selfEntered := true } }).push (flagsWord v.cpu.flags)).setFlags
    fun f => { f with tf := false, intf := false }).push v.cpu.cs).push ret

/-- The vector table names `sel:off` for vector `n` (R801). -/
def View.Vector (v : View) (n : Byte) (sel off : Word) : Prop :=
  v.Holds16 0 (vectorOffset n) off ∧ v.Holds16 0 (vectorOffset n + 2) sel

/-- `b` is the byte a port read gives: a controller's answer, the stored byte where RAM or ROM stands, any
byte elsewhere (R124, R854). -/
def View.PortHolds (v : View) (p : Word) (b : Byte) : Prop :=
  match picPort v.params.picBase v.pics p with
  | some (id, dataPort) => b = (picsRead id dataPort v.pics).2
  | none =>
    regionKind v.params.portMap p.toNat = some .ram ∨ regionKind v.params.portMap p.toNat = some .rom →
      b = memRead v.ports p.toNat

/-- The view after a port is read: a controller's read may end a poll (R870). -/
def View.portRead (v : View) (p : Word) : View :=
  match picPort v.params.picBase v.pics p with
  | some (id, dataPort) => { v with pics := (picsRead id dataPort v.pics).1 }
  | none => v

/-- The view after a port is written (R124, R854). -/
def View.portWrite (v : View) (p : Word) (b : Byte) : View :=
  match picPort v.params.picBase v.pics p with
  | some (id, dataPort) => { v with pics := picsWrite id dataPort b v.pics }
  | none =>
    match regionKind v.params.portMap p.toNat with
    | some .ram => { v with ports := memWrite v.ports p.toNat b }
    | some .rom => v
    | some .device => { v with deliveries := v.deliveries ++ [⟨.io, p.toNat, b⟩] }
    | none => v

/-! ### What a statement says of an instruction -/

/-- The addresses a byte written to a place goes to. -/
def storedAt8 : Place Reg8 → List Nat
  | .reg _ => []
  | .mem seg off => [phys seg off]

/-- The addresses a word written to a place goes to. -/
def storedAt16 : Place Reg16 → List Nat
  | .reg _ => []
  | .mem seg off => [phys seg off, phys seg (off + 1)]

/-- The addresses a pushed word goes to, SP being `sp` before the push. -/
def pushedAt (ss sp : Word) : List Nat := [phys ss (sp - 2), phys ss (sp - 1)]

/-- Every byte of memory outside `addrs` reads as before. -/
def BytesKept (s t : State) (addrs : List Nat) : Prop := ∀ a, a ∉ addrs → memRead t.mem a = memRead s.mem a

/-- `exec i s` answers a next state whose view is `v`, that is ready again, unlocked, and keeps every byte of
memory outside `addrs`. -/
def Completes (i : Instr) (s : State) (v : View) (addrs : List Nat) : Prop :=
  ∃ t, exec i s = .next t ∧ Ready t ∧ t.biu.lockOut = false ∧ view t = v ∧ BytesKept s t addrs

/-- The prefetch queue is empty, and an instruction fetch in flight is stale: its byte will be discarded (R150,
R151). -/
def Flushed (b : Biu) : Prop :=
  b.queue = [] ∧ ∀ t, b.bus = .busy t → t.owner = .prefetch → t.phase ≠ .clear → t.stale = true

/-- As `Completes`, and the prefetch queue has been flushed (R150, R151). -/
def Jumps (i : Instr) (s : State) (v : View) (addrs : List Nat) : Prop :=
  ∃ t, exec i s = .next t ∧ Ready t ∧ t.biu.lockOut = false ∧ view t = v ∧ BytesKept s t addrs ∧
    Flushed t.biu

end Sys2Proof.Machine
end

