-- ==== Sys2Proof/Certificates/Slice0/Obligations.lean ====
section
/-! DEFINITION. The statements for the provers. Each is a closed proposition about the model; the words of
the spec it formalises are in its docstring. `Ready s` says that the CPU runs, that its Execution Engine
is idle, and that the coming inputs neither reset nor stop it, send no IRQ and use no held bus;
`Completes i s v addrs` says that `exec i s` answers a next state, ready again, with the view `v`, every
byte of memory outside `addrs` reading as before. IP is the offset after the instruction's bytes when
`exec` begins. -/

namespace Sys2Proof.Claims

open Sys2Proof Sys2Proof.Machine

/-! ### Forms -/

/-- The encoding of a unit is documented, or admitted by `UNDOC_ADMITTED` (R240). -/
def admitted (p : Params) (i : Instr) : Prop := ∀ u, i.undoc = some u → admits p u = true

/-- A source of byte width: an immediate, or what a place holds. -/
inductive Src8 where
  | imm (b : Byte)
  | at (p : Place Reg8)

/-- A source of word width. -/
inductive Src16 where
  | imm (w : Word)
  | at (p : Place Reg16)
  | seg (r : SReg)

/-- `b` is the value of a source. -/
def Src8.Is (v : View) (b : Byte) : Src8 → Prop
  | .imm i => b = i
  | .at p => v.Value8 p b

/-- `w` is the value of a source. -/
def Src16.Is (v : View) (w : Word) : Src16 → Prop
  | .imm i => w = i
  | .at p => v.Value16 p w
  | .seg r => w = sreg v.cpu r

/-- The byte forms of the binary ALU operations: operation, destination and source (R408). -/
def aluByte (s : State) : Instr → Option (AluOp × Place Reg8 × Src8)
  | .addEbGb d r => some (.add, place s d, .at (.reg r))
  | .addGbEb r e => some (.add, .reg r, .at (place s e))
  | .addAlIb i => some (.add, .reg .al, .imm i)
  | .addEbIb d i => some (.add, place s d, .imm i)
  | .addEbIbAlias d i => some (.add, place s d, .imm i)
  | .orEbGb d r => some (.or, place s d, .at (.reg r))
  | .orGbEb r e => some (.or, .reg r, .at (place s e))
  | .orAlIb i => some (.or, .reg .al, .imm i)
  | .orEbIb d i => some (.or, place s d, .imm i)
  | .orEbIbAlias d i => some (.or, place s d, .imm i)
  | .adcEbGb d r => some (.adc, place s d, .at (.reg r))
  | .adcGbEb r e => some (.adc, .reg r, .at (place s e))
  | .adcAlIb i => some (.adc, .reg .al, .imm i)
  | .adcEbIb d i => some (.adc, place s d, .imm i)
  | .adcEbIbAlias d i => some (.adc, place s d, .imm i)
  | .sbbEbGb d r => some (.sbb, place s d, .at (.reg r))
  | .sbbGbEb r e => some (.sbb, .reg r, .at (place s e))
  | .sbbAlIb i => some (.sbb, .reg .al, .imm i)
  | .sbbEbIb d i => some (.sbb, place s d, .imm i)
  | .sbbEbIbAlias d i => some (.sbb, place s d, .imm i)
  | .andEbGb d r => some (.and, place s d, .at (.reg r))
  | .andGbEb r e => some (.and, .reg r, .at (place s e))
  | .andAlIb i => some (.and, .reg .al, .imm i)
  | .andEbIb d i => some (.and, place s d, .imm i)
  | .andEbIbAlias d i => some (.and, place s d, .imm i)
  | .subEbGb d r => some (.sub, place s d, .at (.reg r))
  | .subGbEb r e => some (.sub, .reg r, .at (place s e))
  | .subAlIb i => some (.sub, .reg .al, .imm i)
  | .subEbIb d i => some (.sub, place s d, .imm i)
  | .subEbIbAlias d i => some (.sub, place s d, .imm i)
  | .xorEbGb d r => some (.xor, place s d, .at (.reg r))
  | .xorGbEb r e => some (.xor, .reg r, .at (place s e))
  | .xorAlIb i => some (.xor, .reg .al, .imm i)
  | .xorEbIb d i => some (.xor, place s d, .imm i)
  | .xorEbIbAlias d i => some (.xor, place s d, .imm i)
  | .cmpEbGb d r => some (.cmp, place s d, .at (.reg r))
  | .cmpGbEb r e => some (.cmp, .reg r, .at (place s e))
  | .cmpAlIb i => some (.cmp, .reg .al, .imm i)
  | .cmpEbIb d i => some (.cmp, place s d, .imm i)
  | .cmpEbIbAlias d i => some (.cmp, place s d, .imm i)
  | _ => none

/-- The word forms of the binary ALU operations (R408). -/
def aluWord (s : State) : Instr → Option (AluOp × Place Reg16 × Src16)
  | .addEwGw d r => some (.add, place s d, .at (.reg r))
  | .addGwEw r e => some (.add, .reg r, .at (place s e))
  | .addAxIw i => some (.add, .reg .ax, .imm i)
  | .addEwIw d i => some (.add, place s d, .imm i)
  | .addEwIbs d i => some (.add, place s d, .imm (i.signExtend 16))
  | .orEwGw d r => some (.or, place s d, .at (.reg r))
  | .orGwEw r e => some (.or, .reg r, .at (place s e))
  | .orAxIw i => some (.or, .reg .ax, .imm i)
  | .orEwIw d i => some (.or, place s d, .imm i)
  | .orEwIbs d i => some (.or, place s d, .imm (i.signExtend 16))
  | .adcEwGw d r => some (.adc, place s d, .at (.reg r))
  | .adcGwEw r e => some (.adc, .reg r, .at (place s e))
  | .adcAxIw i => some (.adc, .reg .ax, .imm i)
  | .adcEwIw d i => some (.adc, place s d, .imm i)
  | .adcEwIbs d i => some (.adc, place s d, .imm (i.signExtend 16))
  | .sbbEwGw d r => some (.sbb, place s d, .at (.reg r))
  | .sbbGwEw r e => some (.sbb, .reg r, .at (place s e))
  | .sbbAxIw i => some (.sbb, .reg .ax, .imm i)
  | .sbbEwIw d i => some (.sbb, place s d, .imm i)
  | .sbbEwIbs d i => some (.sbb, place s d, .imm (i.signExtend 16))
  | .andEwGw d r => some (.and, place s d, .at (.reg r))
  | .andGwEw r e => some (.and, .reg r, .at (place s e))
  | .andAxIw i => some (.and, .reg .ax, .imm i)
  | .andEwIw d i => some (.and, place s d, .imm i)
  | .andEwIbs d i => some (.and, place s d, .imm (i.signExtend 16))
  | .subEwGw d r => some (.sub, place s d, .at (.reg r))
  | .subGwEw r e => some (.sub, .reg r, .at (place s e))
  | .subAxIw i => some (.sub, .reg .ax, .imm i)
  | .subEwIw d i => some (.sub, place s d, .imm i)
  | .subEwIbs d i => some (.sub, place s d, .imm (i.signExtend 16))
  | .xorEwGw d r => some (.xor, place s d, .at (.reg r))
  | .xorGwEw r e => some (.xor, .reg r, .at (place s e))
  | .xorAxIw i => some (.xor, .reg .ax, .imm i)
  | .xorEwIw d i => some (.xor, place s d, .imm i)
  | .xorEwIbs d i => some (.xor, place s d, .imm (i.signExtend 16))
  | .cmpEwGw d r => some (.cmp, place s d, .at (.reg r))
  | .cmpGwEw r e => some (.cmp, .reg r, .at (place s e))
  | .cmpAxIw i => some (.cmp, .reg .ax, .imm i)
  | .cmpEwIw d i => some (.cmp, place s d, .imm i)
  | .cmpEwIbs d i => some (.cmp, place s d, .imm (i.signExtend 16))
  | _ => none

/-- A result whose flags keep the CF that was before (R404). -/
def keepCarry {w : Nat} (f : Flags) (o : AluOut w) : AluOut w := ⟨o.result, { o.flags with cf := f.cf }⟩

/-- INC, DEC and NEG of a byte: what they compute, and where (R415 to R417). -/
def unaryByte (s : State) : Instr → Option ((Byte → Flags → AluOut 8) × Place Reg8)
  | .incEb d => some (fun a f => keepCarry f (addAlu a 1 false f), place s d)
  | .decEb d => some (fun a f => keepCarry f (subAlu a 1 false f), place s d)
  | .negEb d => some (fun a f => subAlu 0 a false f, place s d)
  | _ => none

/-- INC, DEC and NEG of a word (R415 to R417). -/
def unaryWord (s : State) : Instr → Option ((Word → Flags → AluOut 16) × Place Reg16)
  | .incR16 r => some (fun a f => keepCarry f (addAlu a 1 false f), .reg r)
  | .incEw d => some (fun a f => keepCarry f (addAlu a 1 false f), place s d)
  | .decR16 r => some (fun a f => keepCarry f (subAlu a 1 false f), .reg r)
  | .decEw d => some (fun a f => keepCarry f (subAlu a 1 false f), place s d)
  | .negEw d => some (fun a f => subAlu 0 a false f, place s d)
  | _ => none

/-- TEST of bytes: its two operands (R503). -/
def testByte (s : State) : Instr → Option (Place Reg8 × Src8)
  | .testEbGb e g => some (place s e, .at (.reg g))
  | .testAlIb i => some (.reg .al, .imm i)
  | .testEbIb e i => some (place s e, .imm i)
  | .testEbIbAlias e i => some (place s e, .imm i)
  | _ => none

/-- TEST of words (R503). -/
def testWord (s : State) : Instr → Option (Place Reg16 × Src16)
  | .testEwGw e g => some (place s e, .at (.reg g))
  | .testAxIw i => some (.reg .ax, .imm i)
  | .testEwIw e i => some (place s e, .imm i)
  | .testEwIwAlias e i => some (place s e, .imm i)
  | _ => none

/-- Shifts and rotates of a byte: kind, count and operand (R510). -/
def shiftByte (s : State) : Instr → Option (ShiftKind × Nat × Place Reg8)
  | .rolEb1 d => some (.rol, 1, place s d)
  | .rorEb1 d => some (.ror, 1, place s d)
  | .rclEb1 d => some (.rcl, 1, place s d)
  | .rcrEb1 d => some (.rcr, 1, place s d)
  | .shlEb1 d => some (.shl, 1, place s d)
  | .shrEb1 d => some (.shr, 1, place s d)
  | .sarEb1 d => some (.sar, 1, place s d)
  | .rolEbCl d => some (.rol, (reg8 s.cpu .cl).toNat, place s d)
  | .rorEbCl d => some (.ror, (reg8 s.cpu .cl).toNat, place s d)
  | .rclEbCl d => some (.rcl, (reg8 s.cpu .cl).toNat, place s d)
  | .rcrEbCl d => some (.rcr, (reg8 s.cpu .cl).toNat, place s d)
  | .shlEbCl d => some (.shl, (reg8 s.cpu .cl).toNat, place s d)
  | .shrEbCl d => some (.shr, (reg8 s.cpu .cl).toNat, place s d)
  | .sarEbCl d => some (.sar, (reg8 s.cpu .cl).toNat, place s d)
  | _ => none

/-- Shifts and rotates of a word (R510). -/
def shiftWord (s : State) : Instr → Option (ShiftKind × Nat × Place Reg16)
  | .rolEw1 d => some (.rol, 1, place s d)
  | .rorEw1 d => some (.ror, 1, place s d)
  | .rclEw1 d => some (.rcl, 1, place s d)
  | .rcrEw1 d => some (.rcr, 1, place s d)
  | .shlEw1 d => some (.shl, 1, place s d)
  | .shrEw1 d => some (.shr, 1, place s d)
  | .sarEw1 d => some (.sar, 1, place s d)
  | .rolEwCl d => some (.rol, (reg8 s.cpu .cl).toNat, place s d)
  | .rorEwCl d => some (.ror, (reg8 s.cpu .cl).toNat, place s d)
  | .rclEwCl d => some (.rcl, (reg8 s.cpu .cl).toNat, place s d)
  | .rcrEwCl d => some (.rcr, (reg8 s.cpu .cl).toNat, place s d)
  | .shlEwCl d => some (.shl, (reg8 s.cpu .cl).toNat, place s d)
  | .shrEwCl d => some (.shr, (reg8 s.cpu .cl).toNat, place s d)
  | .sarEwCl d => some (.sar, (reg8 s.cpu .cl).toNat, place s d)
  | _ => none

/-- MOV of a byte: destination and source (R300). -/
def movByte (s : State) : Instr → Option (Place Reg8 × Src8)
  | .movEbGb d r => some (place s d, .at (.reg r))
  | .movGbEb r e => some (.reg r, .at (place s e))
  | .movEbIb d i => some (place s d, .imm i)
  | .movEbIbAlias _ d i => some (place s d, .imm i)
  | .movR8Ib r i => some (.reg r, .imm i)
  | .movAlOb off => some (.reg .al, .at (.mem (segValue s .ds) off))
  | .movObAl off => some (.mem (segValue s .ds) off, .at (.reg .al))
  | _ => none

/-- MOV of a word, and the store of a segment register (R300, R301). -/
def movWord (s : State) : Instr → Option (Place Reg16 × Src16)
  | .movEwGw d r => some (place s d, .at (.reg r))
  | .movGwEw r e => some (.reg r, .at (place s e))
  | .movEwIw d i => some (place s d, .imm i)
  | .movEwIwAlias _ d i => some (place s d, .imm i)
  | .movR16Iw r i => some (.reg r, .imm i)
  | .movAxOw off => some (.reg .ax, .at (.mem (segValue s .ds) off))
  | .movOwAx off => some (.mem (segValue s .ds) off, .at (.reg .ax))
  | .movEwSw d r => some (place s d, .seg r)
  | .movEwSwAlias d r => some (place s d, .seg r)
  | _ => none

/-- The loads of a segment register from an r/m operand (R302). -/
def movSeg (s : State) : Instr → Option (SReg × Place Reg16)
  | .movSwEw r e => some (r, place s e)
  | .movSwEwAlias r e => some (r, place s e)
  | _ => none

/-- The pushes: what is pushed (R303, R312). -/
def pushed (s : State) : Instr → Option Src16
  | .pushR16 r => some (if r = .sp then .imm (s.cpu.sp - 2) else .at (.reg r))
  | .pushEw e => some (if e = .reg .sp then .imm (s.cpu.sp - 2) else .at (place s e))
  | .pushEwAlias e => some (if e = .reg .sp then .imm (s.cpu.sp - 2) else .at (place s e))
  | .pushSreg r => some (.seg r)
  | .pushf => some (.imm (flagsWord s.cpu.flags))
  | _ => none

/-- The pops into an r/m operand or a register: where the word goes (R304). -/
def popped (s : State) : Instr → Option (Place Reg16)
  | .popR16 r => some (.reg r)
  | .popEw e => some (place s e)
  | .popEwAlias _ e => some (place s e)
  | _ => none

/-- The conditional jumps, by condition and displacement (R665). -/
def conditional : Instr → Option (Cond × Byte)
  | .jo d => some (.jo, d)
  | .jno d => some (.jno, d)
  | .jb d => some (.jb, d)
  | .jnb d => some (.jnb, d)
  | .jz d => some (.jz, d)
  | .jnz d => some (.jnz, d)
  | .jbe d => some (.jbe, d)
  | .ja d => some (.ja, d)
  | .js d => some (.js, d)
  | .jns d => some (.jns, d)
  | .jp d => some (.jp, d)
  | .jnp d => some (.jnp, d)
  | .jl d => some (.jl, d)
  | .jge d => some (.jge, d)
  | .jle d => some (.jle, d)
  | .jg d => some (.jg, d)
  | .joAlias d => some (.jo, d)
  | .jnoAlias d => some (.jno, d)
  | .jbAlias d => some (.jb, d)
  | .jnbAlias d => some (.jnb, d)
  | .jzAlias d => some (.jz, d)
  | .jnzAlias d => some (.jnz, d)
  | .jbeAlias d => some (.jbe, d)
  | .jaAlias d => some (.ja, d)
  | .jsAlias d => some (.js, d)
  | .jnsAlias d => some (.jns, d)
  | .jpAlias d => some (.jp, d)
  | .jnpAlias d => some (.jnp, d)
  | .jlAlias d => some (.jl, d)
  | .jgeAlias d => some (.jge, d)
  | .jleAlias d => some (.jle, d)
  | .jgAlias d => some (.jg, d)
  | _ => none

/-- The condition of R664, from the flags. -/
def taken : Cond → Flags → Prop
  | .jo, f => f.ovf = true
  | .jno, f => f.ovf = false
  | .jb, f => f.cf = true
  | .jnb, f => f.cf = false
  | .jz, f => f.zf = true
  | .jnz, f => f.zf = false
  | .jbe, f => f.cf = true ∨ f.zf = true
  | .ja, f => f.cf = false ∧ f.zf = false
  | .js, f => f.sf = true
  | .jns, f => f.sf = false
  | .jp, f => f.pf = true
  | .jnp, f => f.pf = false
  | .jl, f => f.sf ≠ f.ovf
  | .jge, f => f.sf = f.ovf
  | .jle, f => f.zf = true ∨ f.sf ≠ f.ovf
  | .jg, f => f.zf = false ∧ f.sf = f.ovf

/-- The loop instructions, by their condition on the flags and displacement (R670 to R672). -/
def looping : Instr → Option ((Flags → Prop) × Byte)
  | .loop d => some (fun _ => True, d)
  | .loope d => some (fun f => f.zf = true, d)
  | .loopne d => some (fun f => f.zf = false, d)
  | _ => none

/-- The near returns, by the bytes they release (R660, R661). -/
def nearReturn : Instr → Option Word
  | .ret => some 0
  | .retAlias => some 0
  | .retIw n => some n
  | .retIwAlias n => some n
  | _ => none

/-- The far returns, by the bytes they release (R662, R663). -/
def farReturn : Instr → Option Word
  | .retf => some 0
  | .retfAlias => some 0
  | .retfIw n => some n
  | .retfIwAlias n => some n
  | _ => none

/-- The flag instructions, but for STI: what they do to the flags (R730 to R735). -/
def flagChange : Instr → Option (Flags → Flags)
  | .clc => some fun f => { f with cf := false }
  | .stc => some fun f => { f with cf := true }
  | .cmc => some fun f => { f with cf := !f.cf }
  | .cld => some fun f => { f with df := false }
  | .std => some fun f => { f with df := true }
  | .cli => some fun f => { f with intf := false }
  | _ => none

/-- The prefixes: what they record (R202, R740, R741, R607). -/
def prefixed : Instr → Option (Eu → Eu)
  | .esPrefix => some fun e => { e with segOvr := some .es }
  | .csPrefix => some fun e => { e with segOvr := some .cs }
  | .ssPrefix => some fun e => { e with segOvr := some .ss }
  | .dsPrefix => some fun e => { e with segOvr := some .ds }
  | .lock => some fun e => { e with lock := true }
  | .lockAlias => some fun e => { e with lock := true }
  | .repne => some fun e => { e with rep := .repne }
  | .repe => some fun e => { e with rep := .repe }
  | _ => none

/-- The string instructions (R602 to R606). -/
def isString : Instr → Bool
  | .movsb => true
  | .movsw => true
  | .cmpsb => true
  | .cmpsw => true
  | .scasb => true
  | .scasw => true
  | .lodsb => true
  | .lodsw => true
  | .stosb => true
  | .stosw => true
  | _ => false

/-- SI and DI after an element of `n` bytes that uses both (R600). -/
def advanceBoth (n : Word) (c : Cpu) : Cpu :=
  { c with
    si := if c.flags.df then c.si - n else c.si + n
    di := if c.flags.df then c.di - n else c.di + n }

/-- SI after an element of `n` bytes that uses it alone (R600). -/
def advanceSource (n : Word) (c : Cpu) : Cpu :=
  { c with si := if c.flags.df then c.si - n else c.si + n }

/-- DI after an element of `n` bytes that uses it alone (R600). -/
def advanceDest (n : Word) (c : Cpu) : Cpu :=
  { c with di := if c.flags.df then c.di - n else c.di + n }

/-- Set the six status flags and keep TF, IF and DF. -/
def setStatus (ovf sf zf af pf cf : Bool) (f : Flags) : Flags :=
  ⟨cf, pf, af, zf, sf, f.tf, f.intf, f.df, ovf⟩

/-- The unsigned division of R420: the divisor is not 0 and the quotient is within the limit. -/
def fits (n d limit : Nat) : Prop := d ≠ 0 ∧ n / d ≤ limit

/-- The signed division of R421: the divisor is not 0 and the truncated quotient is within ±limit. -/
def signedFits (n d limit : Int) : Prop := d ≠ 0 ∧ -limit ≤ n.tdiv d ∧ n.tdiv d ≤ limit

/-- The addresses of the six bytes an interrupt entry pushes. -/
def frameAt (c : Cpu) : List Nat := pushedAt c.ss c.sp ++ pushedAt c.ss (c.sp - 2) ++ pushedAt c.ss (c.sp - 4)

/-- `exec i s` enters vector `n` with the return offset `ret` (R820). -/
def Enters (i : Instr) (s : State) (n : Byte) (ret : Word) : Prop :=
  ∃ sel off, ((view s).enterFrame ret).Vector n sel off ∧
    Jumps i s (((view s).enterFrame ret).jumpFar sel off).done (frameAt s.cpu)

/-- The machine is at an instruction boundary and the CPU runs. -/
def AtBoundary (s : State) : Prop := frozen s = false ∧ s.eu.waiting = false ∧ s.eu.fetched = []

/-- Nothing is recognised at a boundary: the shadow is set, or no NMI, no INTR with IF = 1 and no trap is
pending (R810). -/
def NothingPending (s : State) : Prop :=
  s.eu.shadow = true ∨
    (interruptPending s = false ∧ (s.eu.trapArmed && !s.eu.selfEntered) = false)

/-- `step` enters vector `n` at a boundary, with the return offset IP, and flushes the queue (R820, R151). -/
def StepEnters (s : State) (v : View) (n : Byte) : Prop :=
  ∃ sel off t, (v.enterFrame s.cpu.ip).Vector n sel off ∧ step s = .next t ∧ Ready t ∧
    view t = ((v.enterFrame s.cpu.ip).jumpFar sel off).done ∧ BytesKept s t (frameAt s.cpu) ∧
    Flushed t.biu ∧ t.biu.lockOut = false

/-- The repeat state after the bytes of a unit: U15 drops the prefix before another opcode (R201). -/
def repAfter (bytes : List Byte) (r : Rep) : Rep :=
  if refusesRep (bytes.take 1) || refusesRep (bytes.take 2) then .none else r

/-- The state after the bytes of the unit `i` have been taken from the queue: its work begins, with no access
made yet (R67). -/
def tookUnit (s : State) (i : Instr) (rest : List Byte) : State :=
  let c : Cpu := { s.cpu with ip := s.cpu.ip + BitVec.ofNat 16 (encode i).length }
  { s with
    biu := { s.biu with queue := rest }
    cpu := c
    eu := { s.eu with fetched := s.eu.fetched ++ encode i, rep := repAfter (encode i) s.eu.rep }
    progress := some ⟨.unit i, c, []⟩ }

/-- The queue, and the fetch in flight, hold the bytes of memory at CS:IP (R58, R64, R135). -/
def Coherent (s : State) : Prop :=
  (∀ k b, s.biu.queue[k]? = some b →
    b = memRead s.mem (phys s.cpu.cs (s.cpu.ip + BitVec.ofNat 16 k))) ∧
  (match s.biu.bus with
    | .busy t => t.owner = .prefetch → t.phase ≠ .clear → t.stale = false →
        t.target = .mem s.cpu.cs (fetchOffset s) ∧
          (t.phase = .data → t.data = memRead s.mem (phys s.cpu.cs (fetchOffset s)))
    | .passive => True
    | .held => True)

/-- A controller after reset, field by field (R853); its `ISR_MODEL` is that before. The value of `sel`, the
model's own field, is the model's choice and not R853's (log entry 11). -/
def picAtReset (p : Pic) : Pic where
  init := .awaitingIcw1
  irr := 0
  imr := 0
  isr := match p.isr with
    | .single _ => .single none
    | .bitmask _ => .bitmask 0
  ic4 := false
  sngl := false
  adi := false
  ltim := false
  a7to5 := 0
  icw2 := 0
  icw3 := 0
  upm := false
  aeoi := false
  ms := false
  buf := false
  sfnm := false
  lowest := 7
  rotateAeoi := false
  smm := false
  readSel := .irr
  pollPending := false
  pulse := 1
  sel := .spurious

end Sys2Proof.Claims

open Sys2Proof Sys2Proof.Machine Sys2Proof.Claims

/-! ### Reset, invariants and the whole machine -/

/-- R950, R90, R853, R951: a tick with RESET gives every piece of state its reset value and leaves memory,
ports and devices alone. The model's own choices in it: the general registers, which R90 leaves unspecified,
take the launch values of the parameters (log entry 20); `selfEntered` is the model's latch (log entry 18),
`progress` its record of R67's position (log entry 35), and a controller's `sel`, spurious after reset, its
record of what pulse 1 resolved (log entry 11). -/
def Obligations.ResetTick : Prop :=
  ∀ (i : TickIn) (s : State), i.reset = true →
    (let l := s.params.launch
     (tick i s).cpu = ⟨l.ax, l.cx, l.dx, l.bx, l.sp, l.bp, l.si, l.di, 0, 0xFFFF, 0, 0, 0,
      ⟨false, false, false, false, false, false, false, false, false⟩⟩) ∧
    (tick i s).biu = ⟨[], .passive, false, false, none⟩ ∧
    (tick i s).eu.segOvr = none ∧ (tick i s).eu.rep = .none ∧ (tick i s).eu.lock = false ∧
    (tick i s).eu.start = 0 ∧ (tick i s).eu.fetched = [] ∧ (tick i s).eu.shadow = false ∧
    (tick i s).eu.trapArmed = false ∧ (tick i s).eu.selfEntered = false ∧ (tick i s).eu.halted = false ∧
    (tick i s).eu.waiting = false ∧ (tick i s).eu.faulted = none ∧ (tick i s).progress = none ∧
    (tick i s).nmiLatch = false ∧ (tick i s).nmiPrev = i.nmi ∧ (tick i s).busFaults = [] ∧
    (tick i s).stopped = false ∧ (tick i s).pics.master = picAtReset s.pics.master ∧
    (tick i s).pics.slaves = s.pics.slaves.map (fun sl => ⟨sl.line, sl.base, picAtReset sl.pic⟩) ∧
    (tick i s).mem = s.mem ∧ (tick i s).ports = s.ports ∧ (tick i s).deliveries = s.deliveries

/-- The invariant holds right after reset. -/
def Obligations.ResetInvariant : Prop := Inv State.reset

/-- Every step keeps the invariant: canonical storage, a queue of at most six bytes even when the fetch in
flight completes (R136), HLDA exactly while the bus is held (R161), and, unless the CPU is frozen, no
request or transaction of the Execution Engine left over (R133), the bus unlocked (R162), and no work in
progress whose intermediate values could reach the next (R67). -/
def Obligations.StepKeepsInvariant : Prop :=
  ∀ s t : State, Inv s → step s = .next t → Inv t

/-- R975: a step ends the run only when no listed input remains and the CPU has met a DecodeFault, is
stopped, or is halted with IF = 0 and no NMI pending; and nothing is ever refused. That these ends are faults
of `step`, and that the last waits for a passive bus, is the model's choice (log entry 8). -/
def Obligations.RunEnds : Prop :=
  ∀ s : State, Inv s →
    (∀ r, step s ≠ .refused r) ∧
    (∀ f, step s = .fault f →
      s.env.inputs = [] ∧
        ((∃ r, s.eu.faulted = some r ∧ f = .decodeFault r.cs r.ip r.bytes) ∨
          (s.stopped = true ∧ f = .stopped) ∨
          (s.eu.halted = true ∧ s.cpu.flags.intf = false ∧ s.nmiLatch = false ∧ f = .haltedForGood)))

/-- R8: no step changes a parameter, nor the wiring of a slave controller. -/
def Obligations.ParametersFixed : Prop :=
  ∀ s t : State, step s = .next t →
    t.params = s.params ∧
      t.pics.slaves.map (fun sl => (sl.line, sl.base)) = s.pics.slaves.map (fun sl => (sl.line, sl.base))

/-- When the queue holds the bytes of a well-formed unit that may run, `step` is `exec` of that unit: at a
boundary where nothing is recognised and the CPU is not halted, from the state in which the instruction
has begun; after a prefix, from the state as it stands (log entry 9). The bytes have left the queue, IP is
past them, and the unit is recorded as the work in progress (R67, log entry 35). -/
def Obligations.StepRunsUnit : Prop :=
  ∀ (s : State) (i : Instr) (rest : List Byte), i.wf = true → s.biu.queue = encode i ++ rest →
    (AtBoundary s → NothingPending s → s.eu.halted = false →
      (∀ bs, bs <+: encode i → mustFault (beginInstr s) bs = false) →
      step s = exec i (tookUnit (beginInstr s) i rest)) ∧
    (frozen s = false → s.eu.waiting = false → s.eu.fetched ≠ [] →
      (∀ bs, bs <+: encode i → mustFault s bs = false) →
      step s = exec i (tookUnit s i rest))

/-- When memory holds the bytes of a well-formed unit at CS:IP and the queue agrees with memory, `step` is
`exec` of that unit from a state whose view differs only in IP and the record of the bytes taken. -/
def Obligations.StepFetchesMemory : Prop :=
  ∀ (s : State) (i : Instr), Ready s → BiuWf s.biu → Coherent s → AtBoundary s → NothingPending s →
    s.eu.halted = false → i.wf = true →
    (∀ bs, bs <+: encode i → mustFault (beginInstr s) bs = false) →
    (∀ k b, (encode i)[k]? = some b →
      Backed s.params (phys s.cpu.cs (s.cpu.ip + BitVec.ofNat 16 k)) ∧
        memRead s.mem (phys s.cpu.cs (s.cpu.ip + BitVec.ofNat 16 k)) = b) →
    ∃ s1, step s = exec i s1 ∧ Ready s1 ∧
      view s1 = ((view s).setIp (s.cpu.ip + BitVec.ofNat 16 (encode i).length)).setEu
        fun _ => { (beginInstr s).eu with fetched := encode i }

/-! ### Encoding -/

/-- Every well-formed unit is read back from its encoding, whatever follows it. -/
def Obligations.DecodeEncode : Prop :=
  ∀ (i : Instr) (rest : List Byte), i.wf = true → decode (encode i ++ rest) = .done i rest

/-- R240: the decoder identifies a well-formed unit as an undocumented encoding, at some byte of it, exactly
when the unit is that one. -/
def Obligations.UndocumentedIdentified : Prop :=
  ∀ (i : Instr) (u : UndocId), i.wf = true →
    (i.undoc = some u ↔ ∃ bs, bs <+: encode i ∧ undocOf bs = some u)

/-- R205, R235: instruction bytes written out from the spec's encodings decode to what they stand for. -/
def Obligations.EncodedWords : Prop :=
  decode [0x83, 0xC0, 0xFF] = .done (.addEwIbs (.reg .ax) 0xFF) [] ∧
  decode [0x8B, 0x46, 0xFE] = .done (.movGwEw .ax (.mem (.disp8 .bp 0xFE))) [] ∧
  decode [0x8B, 0x0E, 0x00, 0x01] = .done (.movGwEw .cx (.mem (.direct 0x0100))) [] ∧
  decode [0xC7, 0x86, 0x34, 0x12, 0x78, 0x56] = .done (.movEwIw (.mem (.disp16 .bp 0x1234)) 0x5678) [] ∧
  decode [0xD2, 0xF8] = .done (.sarEbCl (.reg .al)) [] ∧
  decode [0xEA, 0x00, 0x01, 0x00, 0xF0] = .done (.jmpAp 0x0100 0xF000) [] ∧
  decode [0xF6, 0xF3] = .done (.divEb (.reg .bl)) [] ∧
  decode [0xFF, 0x2E, 0x40, 0x00] = .done (.jmpMp (.direct 0x0040)) []

/-! ### Flags and arithmetic -/

/-- R62: the FLAGS image has the nine flags in their places, 1 in bits 15 to 12 and bit 1, and 0 in bits 5
and 3; and reading the flags back from their image gives them. -/
def Obligations.FlagsImage : Prop :=
  ∀ f : Flags,
    flagsWord f =
      BitVec.ofNat 16 (0xF002 + 2048 * f.ovf.toNat + 1024 * f.df.toNat + 512 * f.intf.toNat +
        256 * f.tf.toNat + 128 * f.sf.toNat + 64 * f.zf.toNat + 16 * f.af.toNat + 4 * f.pf.toNat +
        f.cf.toNat) ∧
    setFlagsWord (flagsWord f) = f ∧
    ∀ v : Word, setFlagsWord v = ⟨v.getLsbD 0, v.getLsbD 2, v.getLsbD 4, v.getLsbD 6, v.getLsbD 7,
      v.getLsbD 8, v.getLsbD 9, v.getLsbD 10, v.getLsbD 11⟩

/-- The flags of an addition of width `w`, as R400 gives them, with the characterization of OF. -/
def Sys2Proof.Claims.addRule (w : Nat) : Prop :=
  ∀ (a b : BitVec w) (c : Bool) (f : Flags),
    (addAlu a b c f).result.toNat = (a.toNat + b.toNat + c.toNat) % 2 ^ w ∧
    ((addAlu a b c f).flags.cf = true ↔ 2 ^ w ≤ a.toNat + b.toNat + c.toNat) ∧
    ((addAlu a b c f).flags.af = true ↔ 16 ≤ a.toNat % 16 + b.toNat % 16 + c.toNat) ∧
    ((addAlu a b c f).flags.ovf = true ↔
      a.toInt + b.toInt + c.toNat < -(2 ^ (w - 1)) ∨ 2 ^ (w - 1) ≤ a.toInt + b.toInt + c.toNat) ∧
    (addAlu a b c f).flags.sf = (addAlu a b c f).result.msb ∧
    ((addAlu a b c f).flags.zf = true ↔ (addAlu a b c f).result = 0) ∧
    (addAlu a b c f).flags.pf = parity8 (addAlu a b c f).result ∧
    (addAlu a b c f).flags.tf = f.tf ∧ (addAlu a b c f).flags.intf = f.intf ∧
    (addAlu a b c f).flags.df = f.df

/-- The flags of a subtraction of width `w`, as R401 gives them, with the characterization of OF. -/
def Sys2Proof.Claims.subRule (w : Nat) : Prop :=
  ∀ (a b : BitVec w) (c : Bool) (f : Flags),
    ((subAlu a b c f).result.toNat : Int) = ((a.toNat : Int) - b.toNat - c.toNat) % 2 ^ w ∧
    ((subAlu a b c f).flags.cf = true ↔ a.toNat < b.toNat + c.toNat) ∧
    ((subAlu a b c f).flags.af = true ↔ a.toNat % 16 < b.toNat % 16 + c.toNat) ∧
    ((subAlu a b c f).flags.ovf = true ↔
      a.toInt - b.toInt - c.toNat < -(2 ^ (w - 1)) ∨ 2 ^ (w - 1) ≤ a.toInt - b.toInt - c.toNat) ∧
    (subAlu a b c f).flags.sf = (subAlu a b c f).result.msb ∧
    ((subAlu a b c f).flags.zf = true ↔ (subAlu a b c f).result = 0) ∧
    (subAlu a b c f).flags.pf = parity8 (subAlu a b c f).result ∧
    (subAlu a b c f).flags.tf = f.tf ∧ (subAlu a b c f).flags.intf = f.intf ∧
    (subAlu a b c f).flags.df = f.df

/-- The results and flags of the eight operations at width `w`, as R407 gives them: ADD, ADC, SUB, SBB and CMP
by `Add` and `Sub`, AND, OR and XOR with the flags of R403. -/
def Sys2Proof.Claims.aluRule (w : Nat) : Prop :=
  ∀ (a b : BitVec w) (af : Bool) (f : Flags),
    aluResult .add a b af f = addAlu a b false f ∧ aluResult .adc a b af f = addAlu a b f.cf f ∧
    aluResult .sub a b af f = subAlu a b false f ∧ aluResult .sbb a b af f = subAlu a b f.cf f ∧
    aluResult .cmp a b af f = subAlu a b false f ∧
    (∀ (op : AluOp) (r : BitVec w),
      (op = .and ∧ r = a &&& b) ∨ (op = .or ∧ r = a ||| b) ∨ (op = .xor ∧ r = a ^^^ b) →
      aluResult op a b af f = ⟨r, setStatus false r.msb (decide (r = 0)) af (parity8 r) false f⟩)

/-- R400 to R403: the result and flags of an addition and of a subtraction, OF being 1 exactly when the signed
sum or difference is out of range; and the operation and carry-in that each ALU instruction takes. -/
def Obligations.AdditionSubtractionFlags : Prop :=
  (addRule 8 ∧ addRule 16) ∧ (subRule 8 ∧ subRule 16) ∧ aluRule 8 ∧ aluRule 16

/-- R406 at width `w`: adding with carry in one operation or in two stages. -/
def Sys2Proof.Claims.twoStage (w : Nat) : Prop :=
  ∀ (a b : BitVec w) (c : Bool) (f : Flags),
    (let one := addAlu a b c f
     let first := addAlu a b false f
     let second := addAlu first.result 0 c first.flags
     one.result = second.result ∧ one.flags.cf = (first.flags.cf || second.flags.cf) ∧
       one.flags.af = (first.flags.af || second.flags.af) ∧
       one.flags.ovf = (first.flags.ovf ^^ second.flags.ovf) ∧ one.flags.sf = second.flags.sf ∧
       one.flags.zf = second.flags.zf ∧ one.flags.pf = second.flags.pf) ∧
    (let one := subAlu a b c f
     let first := subAlu a b false f
     let second := subAlu first.result 0 c first.flags
     one.result = second.result ∧ one.flags.cf = (first.flags.cf || second.flags.cf) ∧
       one.flags.af = (first.flags.af || second.flags.af) ∧
       one.flags.ovf = (first.flags.ovf ^^ second.flags.ovf) ∧ one.flags.sf = second.flags.sf ∧
       one.flags.zf = second.flags.zf ∧ one.flags.pf = second.flags.pf)

/-- R406: the carry folded in as one operation is the two-stage description with the flags combined. -/
def Obligations.CarryFolding : Prop := twoStage 8 ∧ twoStage 16

/-- R422: adding two packed-BCD bytes with a carry and adjusting gives the packed-BCD digits of the sum
modulo 100, and CF when the sum is 100 or more. -/
def Obligations.DecimalAddition : Prop :=
  ∀ (x y : Fin 100) (c : Bool) (f : Flags),
    (let bcd : Nat → Byte := fun n => BitVec.ofNat 8 (16 * (n / 10) + n % 10)
     let sum := addAlu (bcd x) (bcd y) c f
     (daaAlu sum.result sum.flags).result = bcd ((x + y + c.toNat) % 100) ∧
       ((daaAlu sum.result sum.flags).flags.cf = true ↔ 100 ≤ x.val + y.val + c.toNat))

/-! ### The binary ALU instructions -/

/-- R408 to R414, R500 to R502: the byte forms of ADD, OR, ADC, SBB, AND, SUB, XOR and CMP compute their
operation of destination and source; all but CMP write the result to the destination; AF after OR, AND and
XOR is some value. -/
def Obligations.AluByteForms : Prop :=
  ∀ (s : State) (i : Instr) (op : AluOp) (dst : Place Reg8) (src : Src8),
    aluByte s i = some (op, dst, src) → admitted s.params i → Ready s →
    ∃ a b af, (view s).Value8 dst a ∧ src.Is (view s) b ∧
      (op = .cmp →
        Completes i s ((view s).setFlags fun _ => (aluResult op a b af s.cpu.flags).flags).done []) ∧
      (op ≠ .cmp →
        Completes i s (((view s).setFlags fun _ => (aluResult op a b af s.cpu.flags).flags).write8 dst
          (aluResult op a b af s.cpu.flags).result).done (storedAt8 dst))

/-- R408 to R414, R500 to R502: the same for the word forms, with the byte immediate of opcode 83
sign-extended. -/
def Obligations.AluWordForms : Prop :=
  ∀ (s : State) (i : Instr) (op : AluOp) (dst : Place Reg16) (src : Src16),
    aluWord s i = some (op, dst, src) → admitted s.params i → Ready s →
    ∃ a b af, (view s).Value16 dst a ∧ src.Is (view s) b ∧
      (op = .cmp →
        Completes i s ((view s).setFlags fun _ => (aluResult op a b af s.cpu.flags).flags).done []) ∧
      (op ≠ .cmp →
        Completes i s (((view s).setFlags fun _ => (aluResult op a b af s.cpu.flags).flags).write16 dst
          (aluResult op a b af s.cpu.flags).result).done (storedAt16 dst))

/-- R415 to R417, R404: INC and DEC write every status flag but CF, NEG writes all six. -/
def Obligations.UnaryForms : Prop :=
  (∀ (s : State) (i : Instr) (f : Byte → Flags → AluOut 8) (dst : Place Reg8),
    unaryByte s i = some (f, dst) → Ready s →
    ∃ a, (view s).Value8 dst a ∧
      Completes i s (((view s).setFlags fun _ => (f a s.cpu.flags).flags).write8 dst
        (f a s.cpu.flags).result).done (storedAt8 dst)) ∧
  (∀ (s : State) (i : Instr) (f : Word → Flags → AluOut 16) (dst : Place Reg16),
    unaryWord s i = some (f, dst) → Ready s →
    ∃ a, (view s).Value16 dst a ∧
      Completes i s (((view s).setFlags fun _ => (f a s.cpu.flags).flags).write16 dst
        (f a s.cpu.flags).result).done (storedAt16 dst))

/-- R503, R403: TEST sets the flags of the conjunction, some value in AF, and writes no operand. -/
def Obligations.TestForms : Prop :=
  (∀ (s : State) (i : Instr) (p : Place Reg8) (src : Src8),
    testByte s i = some (p, src) → admitted s.params i → Ready s →
    ∃ a b af, (view s).Value8 p a ∧ src.Is (view s) b ∧
      Completes i s ((view s).setFlags
        (setStatus false (a &&& b).msb (decide (a &&& b = 0)) af (parity8 (a &&& b)) false)).done []) ∧
  (∀ (s : State) (i : Instr) (p : Place Reg16) (src : Src16),
    testWord s i = some (p, src) → admitted s.params i → Ready s →
    ∃ a b af, (view s).Value16 p a ∧ src.Is (view s) b ∧
      Completes i s ((view s).setFlags
        (setStatus false (a &&& b).msb (decide (a &&& b = 0)) af (parity8 (a &&& b)) false)).done [])

/-- R504: NOT complements its operand and changes no flag. -/
def Obligations.NotForms : Prop :=
  (∀ (s : State) (e : Rm Reg8), Ready s →
    ∃ a, (view s).Value8 (place s e) a ∧
      Completes (.notEb e) s ((view s).write8 (place s e) (a ^^^ 0xFF#8)).done (storedAt8 (place s e))) ∧
  (∀ (s : State) (e : Rm Reg16), Ready s →
    ∃ a, (view s).Value16 (place s e) a ∧
      Completes (.notEw e) s ((view s).write16 (place s e) (a ^^^ 0xFFFF#16)).done
        (storedAt16 (place s e)))

/-- R510 to R517: shifts and rotates of a byte or a word. With a count of 0 nothing changes; else the
one-bit step is applied count times, CF is its last carry, OF is defined for a count of 1 and some value
else, and the shifts set SF, ZF and PF and some value in AF. -/
def Obligations.ShiftForms : Prop :=
  (∀ (s : State) (i : Instr) (k : ShiftKind) (n : Nat) (dst : Place Reg8),
    shiftByte s i = some (k, n, dst) → Ready s →
    ∃ x, (view s).Value8 dst x ∧
      (n = 0 → Completes i s (view s).done []) ∧
      (n ≠ 0 → ∃ ovf af, Completes i s (((view s).write8 dst (shiftSteps k n x s.cpu.flags.cf).1).setFlags
        fun _ => (shiftResult k n x ovf af s.cpu.flags).flags).done (storedAt8 dst))) ∧
  (∀ (s : State) (i : Instr) (k : ShiftKind) (n : Nat) (dst : Place Reg16),
    shiftWord s i = some (k, n, dst) → Ready s →
    ∃ x, (view s).Value16 dst x ∧
      (n = 0 → Completes i s (view s).done []) ∧
      (n ≠ 0 → ∃ ovf af, Completes i s (((view s).write16 dst (shiftSteps k n x s.cpu.flags.cf).1).setFlags
        fun _ => (shiftResult k n x ovf af s.cpu.flags).flags).done (storedAt16 dst)))

/-- What `n` one-bit steps do to a value of width `w` and to CF: SHL multiplies, SHR divides, SAR divides the
signed value, ROL and ROR rotate the value, RCL and RCR rotate the value with CF above it (R511 to R517). -/
def Sys2Proof.Claims.shiftValueRule (w : Nat) : Prop :=
  ∀ (n : Nat) (x : BitVec w) (c : Bool),
    (shiftSteps .shl n x c).1.toNat = x.toNat * 2 ^ n % 2 ^ w ∧
    (shiftSteps .shr n x c).1.toNat = x.toNat / 2 ^ n ∧
    (shiftSteps .sar n x c).1.toInt = x.toInt / 2 ^ n ∧
    (shiftSteps .rol n x c).1 = x.rotateLeft n ∧ (shiftSteps .ror n x c).1 = x.rotateRight n ∧
    BitVec.cons (shiftSteps .rcl n x c).2 (shiftSteps .rcl n x c).1 = (BitVec.cons c x).rotateLeft n ∧
    BitVec.cons (shiftSteps .rcr n x c).2 (shiftSteps .rcr n x c).1 = (BitVec.cons c x).rotateRight n ∧
    (n ≠ 0 →
      (shiftSteps .shl n x c).2 = decide (x.toNat * 2 ^ n / 2 ^ w % 2 = 1) ∧
      (shiftSteps .shr n x c).2 = decide (x.toNat / 2 ^ (n - 1) % 2 = 1) ∧
      (shiftSteps .sar n x c).2 = decide (x.toInt / 2 ^ (n - 1) % 2 = 1) ∧
      (shiftSteps .rol n x c).2 = (x.rotateLeft n).getLsbD 0 ∧
      (shiftSteps .ror n x c).2 = (x.rotateRight n).msb)

/-- The flags after `n ≥ 1` steps at width `w`: CF is the last carry; OF after one step is as the kind says,
after more it is `ovf`; a shift sets SF, ZF and PF and leaves `af` in AF, a rotate leaves them (R510). -/
def Sys2Proof.Claims.shiftFlagRule (w : Nat) : Prop :=
  ∀ (k : ShiftKind) (n : Nat) (x : BitVec w) (ovf af : Bool) (f : Flags),
    (let r := shiftSteps k n x f.cf
     let g := (shiftResult k n x ovf af f).flags
     let o := if n = 1 then
         (match k with
          | .rol => r.1.msb ^^ r.2
          | .rcl => r.1.msb ^^ r.2
          | .shl => r.1.msb ^^ r.2
          | .ror => r.1.msb ^^ r.1.getLsbD (w - 2)
          | .rcr => r.1.msb ^^ r.1.getLsbD (w - 2)
          | .shr => x.msb
          | .sar => false)
       else ovf
     g = if k = .shl ∨ k = .shr ∨ k = .sar then setStatus o r.1.msb (decide (r.1 = 0)) af (parity8 r.1) r.2 f
       else setStatus o f.sf f.zf f.af f.pf r.2 f)

/-- R510 to R517: the value, CF, OF and the other flags after a shift or rotate by any count. -/
def Obligations.ShiftValues : Prop :=
  (shiftValueRule 8 ∧ shiftValueRule 16) ∧ shiftFlagRule 8 ∧ shiftFlagRule 16

/-! ### Multiplication, division and adjustment -/

/-- R418, R419: MUL and IMUL give the exact product in AX or DX:AX, and CF = OF exactly when its high half is
not the extension of its low half; SF, ZF, AF and PF take some values. -/
def Obligations.Multiplication : Prop :=
  (∀ (s : State) (e : Rm Reg8), Ready s →
    ∃ b sf zf af pf, (view s).Value8 (place s e) b ∧
      (let p : Nat := (reg8 s.cpu .al).toNat * b.toNat
       Completes (.mulEb e) s (((view s).setCpu fun c => { c with ax := BitVec.ofNat 16 p }).setFlags
        (setStatus (decide (256 ≤ p)) sf zf af pf (decide (256 ≤ p)))).done [])) ∧
  (∀ (s : State) (e : Rm Reg16), Ready s →
    ∃ b sf zf af pf, (view s).Value16 (place s e) b ∧
      (let p : Nat := s.cpu.ax.toNat * b.toNat
       Completes (.mulEw e) s (((view s).setCpu fun c =>
        { c with ax := BitVec.ofNat 16 p, dx := BitVec.ofNat 16 (p / 65536) }).setFlags
        (setStatus (decide (65536 ≤ p)) sf zf af pf (decide (65536 ≤ p)))).done [])) ∧
  (∀ (s : State) (e : Rm Reg8), Ready s →
    ∃ b sf zf af pf, (view s).Value8 (place s e) b ∧
      (let p : Int := (reg8 s.cpu .al).toInt * b.toInt
       Completes (.imulEb e) s (((view s).setCpu fun c => { c with ax := BitVec.ofInt 16 p }).setFlags
        (setStatus (decide (p < -128 ∨ 127 < p)) sf zf af pf (decide (p < -128 ∨ 127 < p)))).done [])) ∧
  (∀ (s : State) (e : Rm Reg16), Ready s →
    ∃ b sf zf af pf, (view s).Value16 (place s e) b ∧
      (let p : Int := s.cpu.ax.toInt * b.toInt
       Completes (.imulEw e) s (((view s).setCpu fun c =>
        { c with ax := BitVec.ofInt 16 p, dx := BitVec.ofInt 16 (p / 65536) }).setFlags
        (setStatus (decide (p < -32768 ∨ 32767 < p)) sf zf af pf
          (decide (p < -32768 ∨ 32767 < p)))).done []))

/-- R420, R806: DIV divides AX or DX:AX. When the quotient fits it gives quotient and remainder and some value
in each status flag; else it enters vector 0 with no register, flag or operand written and the offset after
the instruction saved. -/
def Obligations.UnsignedDivision : Prop :=
  (∀ (s : State) (e : Rm Reg8), Ready s →
    ∃ b, (view s).Value8 (place s e) b ∧
      (fits s.cpu.ax.toNat b.toNat 0xFF → ∃ ovf sf zf af pf cf,
        Completes (.divEb e) s (((view s).setCpu fun c =>
          { c with ax := BitVec.ofNat 16 (256 * (c.ax.toNat % b.toNat) + c.ax.toNat / b.toNat) }).setFlags
          (setStatus ovf sf zf af pf cf)).done []) ∧
      (¬ fits s.cpu.ax.toNat b.toNat 0xFF → Enters (.divEb e) s 0 s.cpu.ip)) ∧
  (∀ (s : State) (e : Rm Reg16), Ready s →
    ∃ b, (view s).Value16 (place s e) b ∧
      (let n : Nat := 65536 * s.cpu.dx.toNat + s.cpu.ax.toNat
       (fits n b.toNat 0xFFFF → ∃ ovf sf zf af pf cf,
        Completes (.divEw e) s (((view s).setCpu fun c =>
          { c with ax := BitVec.ofNat 16 (n / b.toNat), dx := BitVec.ofNat 16 (n % b.toNat) }).setFlags
          (setStatus ovf sf zf af pf cf)).done []) ∧
       (¬ fits n b.toNat 0xFFFF → Enters (.divEw e) s 0 s.cpu.ip)))

/-- R421, R806: IDIV divides truncating toward zero, the remainder having the sign of the dividend; a quotient
outside -127 to 127, or -32767 to 32767, is the divide error. -/
def Obligations.SignedDivision : Prop :=
  (∀ (s : State) (e : Rm Reg8), Ready s →
    ∃ b, (view s).Value8 (place s e) b ∧
      (signedFits s.cpu.ax.toInt b.toInt 127 → ∃ ovf sf zf af pf cf,
        Completes (.idivEb e) s (((view s).setCpu fun c =>
          { c with
            ax := joinBytes (BitVec.ofInt 8 (c.ax.toInt.tmod b.toInt))
              (BitVec.ofInt 8 (c.ax.toInt.tdiv b.toInt)) }).setFlags
          (setStatus ovf sf zf af pf cf)).done []) ∧
      (¬ signedFits s.cpu.ax.toInt b.toInt 127 → Enters (.idivEb e) s 0 s.cpu.ip)) ∧
  (∀ (s : State) (e : Rm Reg16), Ready s →
    ∃ b, (view s).Value16 (place s e) b ∧
      (let n : Int := 65536 * s.cpu.dx.toInt + s.cpu.ax.toNat
       (signedFits n b.toInt 32767 → ∃ ovf sf zf af pf cf,
        Completes (.idivEw e) s (((view s).setCpu fun c =>
          { c with ax := BitVec.ofInt 16 (n.tdiv b.toInt), dx := BitVec.ofInt 16 (n.tmod b.toInt) }).setFlags
          (setStatus ovf sf zf af pf cf)).done []) ∧
       (¬ signedFits n b.toInt 32767 → Enters (.idivEw e) s 0 s.cpu.ip)))

/-- R422, R423: DAA and DAS adjust AL by 6 and by 0x60 as the old AL, AF and CF say, set AF and CF to whether
they did, set SF, ZF and PF from AL, and leave some value in OF. -/
def Obligations.DecimalAdjust : Prop :=
  ∀ s : State, Ready s →
    (let al := reg8 s.cpu .al
     let low : Bool := decide (9 < al.toNat % 16) || s.cpu.flags.af
     let high : Bool := decide (0x99 < al.toNat) || s.cpu.flags.cf
     let n : Nat := 6 * low.toNat + 0x60 * high.toNat
     let sum := al + BitVec.ofNat 8 n
     let dif := al - BitVec.ofNat 8 n
     (∃ ovf, Completes .daa s (((view s).setCpu (setReg8 .al sum)).setFlags
        (setStatus ovf sum.msb (decide (sum = 0)) low (parity8 sum) high)).done []) ∧
     (∃ ovf, Completes .das s (((view s).setCpu (setReg8 .al dif)).setFlags
        (setStatus ovf dif.msb (decide (dif = 0)) low (parity8 dif) high)).done []))

/-- R424, R425: AAA and AAS adjust AL by 6 and AH by 1 when AL's low digit exceeds 9 or AF is 1, keep AL's low
digit, set AF and CF to whether they did, and leave some values in OF, SF, ZF and PF. -/
def Obligations.AsciiAdjust : Prop :=
  ∀ s : State, Ready s →
    (let al := reg8 s.cpu .al
     let ah := reg8 s.cpu .ah
     let adj : Bool := decide (9 < al.toNat % 16) || s.cpu.flags.af
     let up : Word := if adj then joinBytes (ah + 1) ((al + 6) &&& 0x0F) else joinBytes ah (al &&& 0x0F)
     let down : Word := if adj then joinBytes (ah - 1) ((al - 6) &&& 0x0F) else joinBytes ah (al &&& 0x0F)
     (∃ ovf sf zf pf, Completes .aaa s (((view s).setCpu (setReg16 .ax up)).setFlags
        (setStatus ovf sf zf adj pf adj)).done []) ∧
     (∃ ovf sf zf pf, Completes .aas s (((view s).setCpu (setReg16 .ax down)).setFlags
        (setStatus ovf sf zf adj pf adj)).done []))

/-- R426, R427: AAM and AAD with base 0x0A, or another base when U16 is admitted; AAM with base 0 enters vector
0 with AX unchanged. -/
def Obligations.AsciiMultiplyDivide : Prop :=
  ∀ (s : State) (base : Byte), Ready s →
    (let al := (reg8 s.cpu .al).toNat
     let ah := (reg8 s.cpu .ah).toNat
     let quotient : Byte := BitVec.ofNat 8 (al / base.toNat)
     let remainder : Byte := BitVec.ofNat 8 (al % base.toNat)
     let packed : Byte := BitVec.ofNat 8 (al + ah * base.toNat)
     (∀ i, (i = .aam ∧ base = 0x0A ∨ i = .aamBase base ∧ admits s.params .u16 = true) →
      (base ≠ 0 → ∃ ovf af cf, Completes i s (((view s).setCpu
        (setReg16 .ax (joinBytes quotient remainder))).setFlags
        (setStatus ovf remainder.msb (decide (remainder = 0)) af (parity8 remainder) cf)).done []) ∧
      (base = 0 → Enters i s 0 s.cpu.ip)) ∧
     (∀ i, (i = .aad ∧ base = 0x0A ∨ i = .aadBase base ∧ admits s.params .u16 = true) →
      ∃ ovf af cf, Completes i s (((view s).setCpu (setReg16 .ax (joinBytes 0 packed))).setFlags
        (setStatus ovf packed.msb (decide (packed = 0)) af (parity8 packed) cf)).done []))

/-- R428, R429: CBW sign-extends AL into AX, and CWD fills DX with the sign of AX; no flag changes. -/
def Obligations.Conversions : Prop :=
  ∀ s : State, Ready s →
    Completes .cbw s ((view s).setCpu fun c => { c with ax := (reg8 c .al).signExtend 16 }).done [] ∧
    Completes .cwd s ((view s).setCpu fun c =>
      { c with dx := if c.ax.toNat < 0x8000 then 0 else 0xFFFF }).done []

/-! ### Data transfer -/

/-- R300, R301: every form of MOV, and the store of a segment register, writes the source's value to the
destination and changes no flag. -/
def Obligations.MovForms : Prop :=
  (∀ (s : State) (i : Instr) (dst : Place Reg8) (src : Src8),
    movByte s i = some (dst, src) → admitted s.params i → Ready s →
    ∃ b, src.Is (view s) b ∧ Completes i s ((view s).write8 dst b).done (storedAt8 dst)) ∧
  (∀ (s : State) (i : Instr) (dst : Place Reg16) (src : Src16),
    movWord s i = some (dst, src) → admitted s.params i → Ready s →
    ∃ w, src.Is (view s) w ∧ Completes i s ((view s).write16 dst w).done (storedAt16 dst))

/-- R302, R304, R813: loading a segment register by MOV or POP sets it and the interrupt shadow. -/
def Obligations.SegmentLoads : Prop :=
  (∀ (s : State) (i : Instr) (r : SReg) (p : Place Reg16),
    movSeg s i = some (r, p) → admitted s.params i → Ready s →
    ∃ w, (view s).Value16 p w ∧
      Completes i s (((view s).setCpu (setSreg r w)).done.setEu fun e => { e with shadow := true }) []) ∧
  (∀ (s : State) (r : SReg), Ready s →
    ∃ w, (view s).Top w ∧
      Completes (.popSreg r) s ((((view s).addSp 2).setCpu (setSreg r w)).done.setEu
        fun e => { e with shadow := true }) [])

/-- R303, R312: PUSH and PUSHF decrement SP by 2 and store the word at SS:SP; PUSH SP stores the decremented
value. -/
def Obligations.Pushes : Prop :=
  ∀ (s : State) (i : Instr) (src : Src16), pushed s i = some src → admitted s.params i → Ready s →
    ∃ w, src.Is (view s) w ∧ Completes i s ((view s).push w).done (pushedAt s.cpu.ss s.cpu.sp)

/-- R304, R313: POP takes the word at SS:SP, adds 2 to SP and writes the destination, whose address is that
before the pop; POPF sets all nine flags from the word. -/
def Obligations.Pops : Prop :=
  (∀ (s : State) (i : Instr) (dst : Place Reg16), popped s i = some dst → admitted s.params i → Ready s →
    ∃ w, (view s).Top w ∧ Completes i s (((view s).addSp 2).write16 dst w).done (storedAt16 dst)) ∧
  (∀ s : State, Ready s →
    ∃ w, (view s).Top w ∧ Completes .popf s (((view s).addSp 2).setFlags fun _ => setFlagsWord w).done [])

/-- R305: XCHG exchanges its operands and changes no flag. -/
def Obligations.Exchanges : Prop :=
  (∀ (s : State) (e : Rm Reg8) (g : Reg8), Ready s →
    ∃ a, (view s).Value8 (place s e) a ∧
      Completes (.xchgEbGb e g) s ((((view s).write8 (place s e) (reg8 s.cpu g))).write8 (.reg g) a).done
        (storedAt8 (place s e))) ∧
  (∀ (s : State) (e : Rm Reg16) (g : Reg16), Ready s →
    ∃ a, (view s).Value16 (place s e) a ∧
      Completes (.xchgEwGw e g) s ((((view s).write16 (place s e) (reg16 s.cpu g))).write16 (.reg g) a).done
        (storedAt16 (place s e))) ∧
  (∀ (s : State) (r : Reg16), Ready s →
    Completes (.xchgAxR16 r) s (((view s).write16 (.reg .ax) (reg16 s.cpu r)).write16 (.reg r) s.cpu.ax).done [])

/-- R306 to R309: XLAT looks AL up, LEA loads the effective address alone, and LDS and LES load a far pointer
read with the segment in force before the load. -/
def Obligations.AddressLoads : Prop :=
  ∀ s : State, Ready s →
    (∃ b, (view s).Holds8 (segValue s .ds) (s.cpu.bx + (reg8 s.cpu .al).setWidth 16) b ∧
      Completes .xlat s ((view s).write8 (.reg .al) b).done []) ∧
    (∀ r m, Completes (.lea r m) s ((view s).write16 (.reg r) (effAddr s.cpu m)).done []) ∧
    (∀ r m, ∃ off sel, (view s).Holds16 (segValue s (defaultSeg m)) (effAddr s.cpu m) off ∧
      (view s).Holds16 (segValue s (defaultSeg m)) (effAddr s.cpu m + 2) sel ∧
      Completes (.lds r m) s (((view s).write16 (.reg r) off).setCpu (setSreg .ds sel)).done []) ∧
    (∀ r m, ∃ off sel, (view s).Holds16 (segValue s (defaultSeg m)) (effAddr s.cpu m) off ∧
      (view s).Holds16 (segValue s (defaultSeg m)) (effAddr s.cpu m + 2) sel ∧
      Completes (.les r m) s (((view s).write16 (.reg r) off).setCpu (setSreg .es sel)).done [])

/-- R320, R321: IN reads a port, or two neighbouring ports low byte first, into AL or AX; OUT writes AL to a
port, or AL to a port and AH to the next, in that order. -/
def Obligations.PortTransfers : Prop :=
  ∀ s : State, Ready s →
    (∀ i p, (∃ b, i = .inAlIb b ∧ p = b.setWidth 16) ∨ (i = .inAlDx ∧ p = s.cpu.dx) →
      ∃ v, (view s).PortHolds p v ∧
        Completes i s (((view s).portRead p).write8 (.reg .al) v).done []) ∧
    (∀ i p, (∃ b, i = .inAxIb b ∧ p = b.setWidth 16) ∨ (i = .inAxDx ∧ p = s.cpu.dx) →
      ∃ v, (view s).PortHolds p (loByte v) ∧ ((view s).portRead p).PortHolds (p + 1) (hiByte v) ∧
        Completes i s ((((view s).portRead p).portRead (p + 1)).write16 (.reg .ax) v).done []) ∧
    (∀ i p, (∃ b, i = .outIbAl b ∧ p = b.setWidth 16) ∨ (i = .outDxAl ∧ p = s.cpu.dx) →
      Completes i s ((view s).portWrite p (reg8 s.cpu .al)).done []) ∧
    (∀ i p, (∃ b, i = .outIbAx b ∧ p = b.setWidth 16) ∨ (i = .outDxAx ∧ p = s.cpu.dx) →
      Completes i s (((view s).portWrite p (reg8 s.cpu .al)).portWrite (p + 1) (reg8 s.cpu .ah)).done [])

/-! ### String instructions -/

/-- R600, R602 to R606: one element of MOVS, STOS, CMPS, SCAS and LODS. R601, R607: under a repeat prefix with
CX = 0 a string instruction changes nothing but its prefixes. -/
def Obligations.StringElements : Prop :=
  ∀ s : State, Ready s →
    (∀ i, isString i = true → s.eu.rep ≠ .none → s.cpu.cx = 0 → Completes i s (view s).done []) ∧
    (s.eu.rep = .none →
     (∃ b, (view s).Holds8 (segValue s .ds) s.cpu.si b ∧
       Completes .movsb s (((view s).store8 s.cpu.es s.cpu.di b).setCpu (advanceBoth 1)).done
         [phys s.cpu.es s.cpu.di]) ∧
     (∃ w, (view s).Holds16 (segValue s .ds) s.cpu.si w ∧
       Completes .movsw s (((view s).store16 s.cpu.es s.cpu.di w).setCpu (advanceBoth 2)).done
         [phys s.cpu.es s.cpu.di, phys s.cpu.es (s.cpu.di + 1)]) ∧
     Completes .stosb s (((view s).store8 s.cpu.es s.cpu.di (reg8 s.cpu .al)).setCpu (advanceDest 1)).done
       [phys s.cpu.es s.cpu.di] ∧
     Completes .stosw s (((view s).store16 s.cpu.es s.cpu.di s.cpu.ax).setCpu (advanceDest 2)).done
       [phys s.cpu.es s.cpu.di, phys s.cpu.es (s.cpu.di + 1)] ∧
     (∃ a b, (view s).Holds8 (segValue s .ds) s.cpu.si a ∧ (view s).Holds8 s.cpu.es s.cpu.di b ∧
       Completes .cmpsb s (((view s).setFlags fun f => (subAlu a b false f).flags).setCpu
         (advanceBoth 1)).done []) ∧
     (∃ a b, (view s).Holds16 (segValue s .ds) s.cpu.si a ∧ (view s).Holds16 s.cpu.es s.cpu.di b ∧
       Completes .cmpsw s (((view s).setFlags fun f => (subAlu a b false f).flags).setCpu
         (advanceBoth 2)).done []) ∧
     (∃ b, (view s).Holds8 s.cpu.es s.cpu.di b ∧
       Completes .scasb s (((view s).setFlags fun f => (subAlu (reg8 s.cpu .al) b false f).flags).setCpu
         (advanceDest 1)).done []) ∧
     (∃ b, (view s).Holds16 s.cpu.es s.cpu.di b ∧
       Completes .scasw s (((view s).setFlags fun f => (subAlu s.cpu.ax b false f).flags).setCpu
         (advanceDest 2)).done []) ∧
     (∃ b, (view s).Holds8 (segValue s .ds) s.cpu.si b ∧
       Completes .lodsb s (((view s).write8 (.reg .al) b).setCpu (advanceSource 1)).done []) ∧
     (∃ w, (view s).Holds16 (segValue s .ds) s.cpu.si w ∧
       Completes .lodsw s (((view s).write16 (.reg .ax) w).setCpu (advanceSource 2)).done []))

/-- R601, R606, R607: while no interrupt can become pending, a repeated STOSB runs CX to 0, moves DI by CX bytes
in the direction DF gives, stores AL in every byte it passes over that is RAM, and keeps every other byte,
register and flag. -/
def Obligations.RepeatedStore : Prop :=
  ∀ s : State, Ready s → Unsignalled s → memWf s.mem = true → s.eu.rep ≠ .none →
    (let at_ : Nat → Nat := fun k => phys s.cpu.es
        (if s.cpu.flags.df then s.cpu.di - BitVec.ofNat 16 k else s.cpu.di + BitVec.ofNat 16 k)
     ∃ t, exec .stosb s = .next t ∧ Ready t ∧ t.biu.lockOut = false ∧
      t.cpu = { s.cpu with
        cx := 0
        di := if s.cpu.flags.df then s.cpu.di - s.cpu.cx else s.cpu.di + s.cpu.cx } ∧
      t.eu = clearPrefixes s.cpu.ip s.eu ∧ t.ports = s.ports ∧ t.pics = s.pics ∧ t.params = s.params ∧
      (∀ k, k < s.cpu.cx.toNat → InRam s.params (at_ k) → memRead t.mem (at_ k) = reg8 s.cpu .al) ∧
      (∀ a, (∀ k, k < s.cpu.cx.toNat → a ≠ at_ k) → memRead t.mem a = memRead s.mem a))

/-! ### Control transfer -/

/-- R664, R665, R151: a conditional jump whose condition holds goes to IPn plus the sign-extended displacement
and flushes the queue, a fetch in flight being stale; one whose condition does not hold changes nothing and
keeps the queue. -/
def Obligations.ConditionalJumps : Prop :=
  ∀ (s : State) (i : Instr) (cc : Cond) (d : Byte), conditional i = some (cc, d) → admitted s.params i →
    Ready s →
    (taken cc s.cpu.flags → Jumps i s ((view s).setIp (s.cpu.ip + d.signExtend 16)).done []) ∧
    (¬ taken cc s.cpu.flags → Completes i s (view s).done [] ∧
      ∀ t, exec i s = .next t → t.biu.queue = s.biu.queue)

/-- R670 to R673: LOOP, LOOPE and LOOPNE decrement CX without touching a flag and jump while CX is not 0 and ZF
is as they ask; JCXZ jumps when CX is 0 and does not change it. R150: one that is not taken keeps the queue. -/
def Obligations.Loops : Prop :=
  ∀ (s : State) (d : Byte), Ready s →
    (∀ i cond, looping i = some (cond, d) →
      (let v := (view s).setCpu fun c => { c with cx := c.cx - 1 }
       (s.cpu.cx ≠ 1 ∧ cond s.cpu.flags → Jumps i s (v.setIp (s.cpu.ip + d.signExtend 16)).done []) ∧
       (¬ (s.cpu.cx ≠ 1 ∧ cond s.cpu.flags) → Completes i s v.done [] ∧
        ∀ t, exec i s = .next t → t.biu.queue = s.biu.queue))) ∧
    (s.cpu.cx = 0 → Jumps (.jcxz d) s ((view s).setIp (s.cpu.ip + d.signExtend 16)).done []) ∧
    (s.cpu.cx ≠ 0 → Completes (.jcxz d) s (view s).done [] ∧
      ∀ t, exec (.jcxz d) s = .next t → t.biu.queue = s.biu.queue)

/-- R650 to R653: the unconditional jumps. -/
def Obligations.UnconditionalJumps : Prop :=
  ∀ s : State, Ready s →
    (∀ d, Jumps (.jmpJb d) s ((view s).setIp (s.cpu.ip + d.signExtend 16)).done []) ∧
    (∀ d, Jumps (.jmpJw d) s ((view s).setIp (s.cpu.ip + d)).done []) ∧
    (∀ e, ∃ w, (view s).Value16 (place s e) w ∧ Jumps (.jmpEw e) s ((view s).setIp w).done []) ∧
    (∀ off sel, Jumps (.jmpAp off sel) s ((view s).jumpFar sel off).done []) ∧
    (∀ m, ∃ off sel, (view s).Holds16 (segValue s (defaultSeg m)) (effAddr s.cpu m) off ∧
      (view s).Holds16 (segValue s (defaultSeg m)) (effAddr s.cpu m + 2) sel ∧
      Jumps (.jmpMp m) s ((view s).jumpFar sel off).done [])

/-- R655 to R658: the calls push IPn, the far ones CS before it, and jump; an indirect target is read before
SP changes. -/
def Obligations.Calls : Prop :=
  ∀ s : State, Ready s →
    (∀ d, Jumps (.callJw d) s (((view s).push s.cpu.ip).setIp (s.cpu.ip + d)).done
      (pushedAt s.cpu.ss s.cpu.sp)) ∧
    (∀ e, ∃ w, (view s).Value16 (place s e) w ∧
      Jumps (.callEw e) s (((view s).push s.cpu.ip).setIp w).done (pushedAt s.cpu.ss s.cpu.sp)) ∧
    (∀ off sel, Jumps (.callAp off sel) s ((((view s).push s.cpu.cs).push s.cpu.ip).jumpFar sel off).done
      (pushedAt s.cpu.ss s.cpu.sp ++ pushedAt s.cpu.ss (s.cpu.sp - 2))) ∧
    (∀ m, ∃ off sel, (view s).Holds16 (segValue s (defaultSeg m)) (effAddr s.cpu m) off ∧
      (view s).Holds16 (segValue s (defaultSeg m)) (effAddr s.cpu m + 2) sel ∧
      Jumps (.callMp m) s ((((view s).push s.cpu.cs).push s.cpu.ip).jumpFar sel off).done
        (pushedAt s.cpu.ss s.cpu.sp ++ pushedAt s.cpu.ss (s.cpu.sp - 2)))

/-- R660 to R663: the returns pop the offset, the far ones then CS, release their bytes, and change no flag. -/
def Obligations.Returns : Prop :=
  ∀ (s : State) (i : Instr) (n : Word), admitted s.params i → Ready s →
    (nearReturn i = some n →
      ∃ off, (view s).Top off ∧ Jumps i s (((view s).addSp (2 + n)).setIp off).done []) ∧
    (farReturn i = some n →
      ∃ off sel, (view s).Top off ∧ ((view s).addSp 2).Top sel ∧
        Jumps i s (((view s).addSp (4 + n)).jumpFar sel off).done [])

/-- R680 to R682, R807: INT n, INT3 and, with OF = 1, INTO enter their vector with the offset after them saved;
INTO with OF = 0 changes nothing. -/
def Obligations.SoftwareInterrupts : Prop :=
  ∀ s : State, Ready s →
    (∀ n, Enters (.int n) s n s.cpu.ip) ∧ Enters .int3 s 3 s.cpu.ip ∧
    (s.cpu.flags.ovf = true → Enters .into s 4 s.cpu.ip) ∧
    (s.cpu.flags.ovf = false → Completes .into s (view s).done [])

/-- R683, R830: IRET pops IP, CS and FLAGS, in that order, and restores all nine flags. -/
def Obligations.InterruptReturn : Prop :=
  ∀ s : State, Ready s →
    ∃ off sel f, (view s).Top off ∧ ((view s).addSp 2).Top sel ∧ ((view s).addSp 4).Top f ∧
      Jumps .iret s ((((view s).addSp 6).jumpFar sel off).setFlags fun _ => setFlagsWord f).done []

/-- R680, R683, R820, R830: when the stack is RAM, an IRET from a state in which SS, SP and memory are as a
software interrupt left them gives back CS, IP, SP and all nine flags as they were after the INT's bytes. -/
def Obligations.InterruptRoundTrip : Prop :=
  ∀ (s t u : State) (n : Byte), Ready s → memWf s.mem = true → (∀ a ∈ frameAt s.cpu, InRam s.params a) →
    exec (.int n) s = .next t → Ready u → u.cpu.ss = t.cpu.ss → u.cpu.sp = t.cpu.sp → u.mem = t.mem →
    u.params = t.params →
    ∃ v, exec .iret u = .next v ∧ v.cpu.cs = s.cpu.cs ∧ v.cpu.ip = s.cpu.ip ∧ v.cpu.sp = s.cpu.sp ∧
      v.cpu.flags = s.cpu.flags

/-! ### Processor control -/

/-- R730 to R736: the flag instructions change their flag alone; STI also sets the interrupt shadow. R310,
R311: LAHF loads AH with SF, ZF, 0, AF, 0, PF, 1, CF, and SAHF sets those five flags from AH. -/
def Obligations.FlagInstructions : Prop :=
  ∀ s : State, Ready s →
    (∀ i f, flagChange i = some f → Completes i s ((view s).setFlags f).done []) ∧
    Completes .sti s (((view s).setFlags fun f => { f with intf := true }).done.setEu
      fun e => { e with shadow := true }) [] ∧
    (let f := s.cpu.flags
     Completes .lahf s ((view s).write8 (.reg .ah) (BitVec.ofNat 8 (128 * f.sf.toNat + 64 * f.zf.toNat +
      16 * f.af.toNat + 4 * f.pf.toNat + 2 + f.cf.toNat))).done []) ∧
    (let ah := reg8 s.cpu .ah
     Completes .sahf s ((view s).setFlags fun f => setStatus f.ovf (ah.getLsbD 7) (ah.getLsbD 6)
      (ah.getLsbD 4) (ah.getLsbD 2) (ah.getLsbD 0) f).done [])

/-- R737, R738, R739, R742, R743: HLT halts; WAIT with TEST asserted ends at once and otherwise waits; ESC and
NOP change nothing but IP; SALC, when admitted, fills AL with CF. -/
def Obligations.ProcessorControl : Prop :=
  ∀ s : State, Ready s →
    Completes .hlt s ((view s).done.setEu fun e => { e with halted := true }) [] ∧
    (s.env.test = true → Completes .wait s (view s).done []) ∧
    (s.env.test = false →
      exec .wait s = .next { s with eu := { s.eu with waiting := true }, progress := none }) ∧
    (∀ op reg e, Completes (.esc op reg e) s (view s).done []) ∧
    Completes .nop s (view s).done [] ∧
    (admits s.params .u14 = true → Completes .salc s ((view s).write8 (.reg .al)
      (if s.cpu.flags.cf then 0xFF else 0)).done [])

/-- R202, R203, R607, R740, R741: a prefix records itself, replacing an earlier one of its kind, and the
instruction goes on, with no work in progress until its next unit (log entry 35). -/
def Obligations.Prefixes : Prop :=
  ∀ (s : State) (i : Instr) (f : Eu → Eu), prefixed i = some f → admitted s.params i →
    exec i s = .next { s with eu := f s.eu, progress := none }

/-- R240, R803: an undocumented unit that is not admitted, and one that has no meaning to admit, raises
DecodeFault: CS, the offset of the instruction's first byte and its bytes are recorded and nothing else
changes but IP, which is again that offset (log entry 7), and the record of the work in progress, which ends
(log entry 35). -/
def Obligations.DecodeFaults : Prop :=
  ∀ (s : State) (i : Instr) (u : UndocId), i.undoc = some u →
    (admits s.params u = false ∨ u = .u7 ∨ u = .u8 ∨ u = .u9 ∨ u = .u17 ∨ u = .u18) →
    exec i s = .next { s with
      cpu := { s.cpu with ip := s.eu.start }
      eu := { s.eu with faulted := some ⟨s.cpu.cs, s.eu.start, s.eu.fetched⟩ }
      progress := none }

/-! ### Interrupts -/

/-- R808, R810, R812: at a boundary a latched NMI is taken before anything else: a halt ends and vector 2 is
entered with the next instruction's offset saved. With no NMI and no INTR to take, the single-step trap of
the instruction just finished is taken if it was armed and the instruction entered no interrupt itself. -/
def Obligations.NmiAndTrapEntry : Prop :=
  ∀ s : State, Ready s → AtBoundary s → s.eu.shadow = false →
    (s.nmiLatch = true → StepEnters s ((view s).setEu fun e => { e with halted := false }) 2) ∧
    (interruptPending s = false → s.eu.trapArmed = true → s.eu.selfEntered = false →
      StepEnters s ((view s).setEu fun e => { e with halted := false }) 1)

/-- R811, R822: with IF = 1 and INTR asserted, two acknowledge pulses give the vector, and its handler is
entered; where the controllers drive no value at the second pulse the vector is some byte. -/
def Obligations.MaskableEntry : Prop :=
  ∀ s : State, Ready s → AtBoundary s → s.eu.shadow = false → s.nmiLatch = false →
    s.cpu.flags.intf = true → cpuIntr s.pics = true →
    (let first := (picsPulse false s.pics).1
     let second := picsPulse true first
     ∃ n, (∀ b, second.2 = some b → n = b) ∧
      StepEnters s { (view s).setEu fun e => { e with halted := false } with pics := second.1 } n)

/-- R813: at the boundary after an instruction that set the shadow nothing is recognised: the next instruction
begins, whatever is pending, and the shadow is cleared. -/
def Obligations.Shadow : Prop :=
  ∀ s : State, AtBoundary s → s.eu.shadow = true → s.eu.halted = false →
    nextUnit s = fetchNext (beginInstr s)

/-- R803, R980, R138, R161: once the CPU has met a DecodeFault or been stopped, a tick without RESET changes only
the controllers, the environment and the stop latch; where the bus is held it stays held, and the HOLD
requester's accesses still act after that: a byte it writes to RAM is stored there and nowhere else (log entry
14). -/
def Obligations.FrozenTick : Prop :=
  ∀ (i : TickIn) (s : State), frozen s = true → i.reset = false →
    (let t : State := { s with
      pics := (irqEvents i.irq s).pics
      stopped := s.stopped || i.stop
      env := { s.env with test := i.test } }
     (s.biu.bus ≠ .held → tick i s = t) ∧
     (s.biu.bus = .held → tick i s = dmaAccesses i.dma t ∧
      (∀ a b, i.dma = [.writeMemory a b] → InRam s.params a → memWf s.mem = true →
        ∀ c, memRead (tick i s).mem c = if c = a then b else memRead s.mem c)))

/-! ### The interrupt controller -/

/-- R855, R857: an IRQ on a masked line is dropped, and one on an unmasked line sets its IRR bit and nothing
else; the request a controller resolves is an eligible one, and no eligible request has a lower rank, the rank of
level j being (j - lowest - 1) mod 8. -/
def Obligations.RequestsAndPriority : Prop :=
  (∀ (p : Pic) (n : Bits3),
    (p.imr.getLsbD n.toNat = true → picIrq p n = p) ∧
    (p.imr.getLsbD n.toNat = false → picIrq p n = { p with irr := p.irr ||| oneHot n } ∧
      ∀ k : Bits3, (picIrq p n).irr.getLsbD k.toNat = (decide (k = n) || p.irr.getLsbD k.toNat))) ∧
  (∀ (p : Pic) (req : Bits3 → Bool),
    (∀ j, picWinner p req = some j →
      picEligible p req j = true ∧
        ∀ k, picEligible p req k = true →
          (j.toNat + 7 - p.lowest.toNat) % 8 ≤ (k.toNat + 7 - p.lowest.toNat) % 8) ∧
    (picWinner p req = none → ∀ k, picEligible p req k = false))

/-- R860: at a controller in 8086 mode that resolves its own level j, the two pulses clear IRR bit j, put j in
service (unless AEOI ends it, log entry 21) and drive the vector (ICW2 & 0xF8) | j. -/
def Obligations.Acknowledge : Prop :=
  ∀ (p : Pic) (j : Bits3), p.sngl = true → p.upm = true →
    (∀ slaves, picWinner p (masterRequests ⟨p, slaves⟩) = some j →
      (let first := picsPulse false ⟨p, slaves⟩
       let second := picsPulse true first.1
       first.1.master.irr.getLsbD j.toNat = false ∧ first.1.master.isr = p.isr.enter j ∧
        second.2 = some ((p.icw2 &&& 0xF8#8) ||| j.setWidth 8) ∧ second.1.slaves = slaves ∧
        (p.aeoi = false → second.1.master.isr = p.isr.enter j) ∧
        (p.aeoi = true → second.1.master.isr = (p.isr.enter j).leave j) ∧
        second.1.master.irr = first.1.master.irr))

/-- R858, R859: whatever state a controller is in, ICW1 with IC4 = 1, ICW2, ICW3 when ICW1 asks for it, and
ICW4 make it operational with those words stored, nothing requested, masked or in service and IR0 highest;
until the last of them it asserts no INTR. R865, for `bitmask`: a non-specific EOI ends the level in service
of least rank and no other, a specific one its own level; for `single`, either ends whatever is in service;
the rotating specific EOI also makes its level the lowest. -/
def Obligations.ControllerCommands : Prop :=
  (∀ (p : Pic) (b1 b2 b3 b4 : Byte), b1.getLsbD 4 = true → b1.getLsbD 0 = true →
    (let q1 := picWriteCommand b1 p
     let q2 := picWriteData b2 q1
     let q3 := if b1.getLsbD 1 then q2 else picWriteData b3 q2
     let q4 := picWriteData b4 q3
     q4.init = .operational ∧ q4.icw2 = b2 ∧ q4.icw3 = (if b1.getLsbD 1 then p.icw3 else b3) ∧
       q4.sngl = b1.getLsbD 1 ∧ q4.upm = b4.getLsbD 0 ∧ q4.aeoi = b4.getLsbD 1 ∧ q4.irr = 0 ∧ q4.imr = 0 ∧
       q4.isr.image = 0 ∧ q4.lowest = 7 ∧
       ∀ req, picIntr q1 req = false ∧ picIntr q2 req = false ∧ picIntr q3 req = false)) ∧
  (∀ (p : Pic) (levels : Byte), p.init = .operational → p.isr = .bitmask levels →
    (levels = 0 → picWriteCommand 0x20 p = p) ∧
    (levels ≠ 0 → ∃ k : Bits3, levels.getLsbD k.toNat = true ∧
      (∀ j : Bits3, levels.getLsbD j.toNat = true →
        (k.toNat + 7 - p.lowest.toNat) % 8 ≤ (j.toNat + 7 - p.lowest.toNat) % 8) ∧
      picWriteCommand 0x20 p = { p with isr := .bitmask (levels &&& ~~~ oneHot k) })) ∧
  (∀ (p : Pic) (k : Bits3), p.init = .operational →
    picWriteCommand (0x60#8 ||| k.setWidth 8) p = { p with isr := p.isr.leave k } ∧
    picWriteCommand (0xE0#8 ||| k.setWidth 8) p = { p with isr := p.isr.leave k, lowest := k }) ∧
  (∀ (p : Pic) (level : Option Bits3), p.init = .operational → p.isr = .single level →
    picWriteCommand 0x20 p = { p with isr := .single none })

/-! ### The bus -/

/-- R130: each tick without RESET or a freeze moves a transaction one phase on: address, status, data, clear. -/
def Obligations.PhaseOrder : Prop :=
  ∀ (hold : Bool) (s : State) (t : Txn), s.biu.bus = .busy t → t.phase ≠ .clear → t.phase ≠ .none →
    ∃ t', (busStep hold s).biu.bus = .busy t' ∧ t'.kind = t.kind ∧ t'.target = t.target ∧
      t'.owner = t.owner ∧ t'.stale = t.stale ∧
      (t.phase = .address → t'.phase = .status) ∧ (t.phase = .status → t'.phase = .data) ∧
      (t.phase = .data → t'.phase = .clear)

/-- R134, R135, R162: at a passive bus, or one whose transaction is in its clear phase (which the next tick finds
passive, R130), HOLD is granted first, unless the bus is locked; then a request of the Execution Engine
starts; then a fetch of CS:FIP if the queue has room and the CPU runs and is not halted; else the bus is
passive. -/
def Obligations.Arbitration : Prop :=
  ∀ (hold : Bool) (s : State), (s.biu.bus = .passive ∨ ∃ t, s.biu.bus = .busy t ∧ t.phase = .clear) →
    (hold = true → s.biu.lockOut = false →
      (busStep hold s).biu.bus = .held ∧ (busStep hold s).biu.hlda = true) ∧
    (hold = false ∨ s.biu.lockOut = true →
      (∀ r, s.biu.euReq = some r →
        (busStep hold s).biu.bus = .busy ⟨r.kind, r.target, r.data, .address, .eu, false⟩) ∧
      (s.biu.euReq = none →
        (s.biu.queue.length < 6 ∧ s.eu.halted = false ∧ s.eu.faulted = none ∧ s.stopped = false →
          ∃ b, (busStep hold s).biu.bus = .busy ⟨.instructionFetch,
            .mem s.cpu.cs (s.cpu.ip + BitVec.ofNat 16 s.biu.queue.length), b, .address, .prefetch, false⟩) ∧
        (¬ (s.biu.queue.length < 6 ∧ s.eu.halted = false ∧ s.eu.faulted = none ∧ s.stopped = false) →
          (busStep hold s).biu.bus = .passive)))

/-- R125, R804: an access to an unmapped address records a BusFault with its kind and address, latches NMI
under BUSFAULT_NMI, and changes neither memory nor a register; a read gives some byte. -/
def Obligations.BusFaults : Prop :=
  ∀ (s : State) (seg off : Word) (b : Byte), regionKind s.params.memMap (phys seg off) = none →
    ∀ (k : BusKind) (ph : Phase) (o : Owner) (st : Bool),
      (k = .instructionFetch ∨ k = .readMemory ∨ k = .writeMemory) →
      (dataPhase ⟨k, .mem seg off, b, ph, o, st⟩ s).2.busFaults =
          s.busFaults ++ [⟨k, (seg.toNat * 16 + off.toNat) % 2 ^ 20⟩] ∧
        (dataPhase ⟨k, .mem seg off, b, ph, o, st⟩ s).2.nmiLatch = (s.nmiLatch || s.params.busFaultNmi) ∧
        view (dataPhase ⟨k, .mem seg off, b, ph, o, st⟩ s).2 = view s

/-- R123: storage in canonical form stays canonical under a write, a byte written is read back, and every other
address keeps its byte. -/
def Obligations.StorageLaws : Prop :=
  ∀ (m : Mem) (a c : Nat) (b : Byte), memWf m = true →
    memWf (memWrite m a b) = true ∧
      memRead (memWrite m a b) c = if c = a then b else memRead m c
end

