-- ==== Sys2Proof/Laws/State.lean ====
section
/-! SUPPORT. One lemma per field per update of the state, and per component of the view, so that no proof
unfolds a record update. -/

namespace Sys2Proof.Machine

/-- `settle` only says in which order a byte is evaluated. -/
@[simp] theorem settle_eq {α : Type} (b : Byte) (k : Byte → α) : settle b k = k b := by
  have h : BitVec.ofNat 8 b.toNat = b := by simp
  unfold settle
  split <;> rename_i hn <;> rw [hn] at h <;> exact congrArg k h

@[simp] theorem setBus_cpu (b : Bus) (s : State) : (setBus b s).cpu = s.cpu := rfl
@[simp] theorem setBus_eu (b : Bus) (s : State) : (setBus b s).eu = s.eu := rfl
@[simp] theorem setBus_progress (b : Bus) (s : State) : (setBus b s).progress = s.progress := rfl
@[simp] theorem setBus_biu (b : Bus) (s : State) : (setBus b s).biu = { s.biu with bus := b } := rfl
@[simp] theorem setBus_nmiLatch (b : Bus) (s : State) : (setBus b s).nmiLatch = s.nmiLatch := rfl
@[simp] theorem setBus_nmiPrev (b : Bus) (s : State) : (setBus b s).nmiPrev = s.nmiPrev := rfl
@[simp] theorem setBus_busFaults (b : Bus) (s : State) : (setBus b s).busFaults = s.busFaults := rfl
@[simp] theorem setBus_stopped (b : Bus) (s : State) : (setBus b s).stopped = s.stopped := rfl
@[simp] theorem setBus_pics (b : Bus) (s : State) : (setBus b s).pics = s.pics := rfl
@[simp] theorem setBus_mem (b : Bus) (s : State) : (setBus b s).mem = s.mem := rfl
@[simp] theorem setBus_ports (b : Bus) (s : State) : (setBus b s).ports = s.ports := rfl
@[simp] theorem setBus_deliveries (b : Bus) (s : State) : (setBus b s).deliveries = s.deliveries := rfl
@[simp] theorem setBus_env (b : Bus) (s : State) : (setBus b s).env = s.env := rfl
@[simp] theorem setBus_params (b : Bus) (s : State) : (setBus b s).params = s.params := rfl

@[simp] theorem nmiEdge_cpu (level : Bool) (s : State) : (nmiEdge level s).cpu = s.cpu := rfl
@[simp] theorem nmiEdge_eu (level : Bool) (s : State) : (nmiEdge level s).eu = s.eu := rfl
@[simp] theorem nmiEdge_progress (level : Bool) (s : State) : (nmiEdge level s).progress = s.progress := rfl
@[simp] theorem nmiEdge_biu (level : Bool) (s : State) : (nmiEdge level s).biu = s.biu := rfl
@[simp] theorem nmiEdge_nmiLatch (level : Bool) (s : State) : (nmiEdge level s).nmiLatch = (s.nmiLatch || (level && !s.nmiPrev)) := rfl
@[simp] theorem nmiEdge_nmiPrev (level : Bool) (s : State) : (nmiEdge level s).nmiPrev = level := rfl
@[simp] theorem nmiEdge_busFaults (level : Bool) (s : State) : (nmiEdge level s).busFaults = s.busFaults := rfl
@[simp] theorem nmiEdge_stopped (level : Bool) (s : State) : (nmiEdge level s).stopped = s.stopped := rfl
@[simp] theorem nmiEdge_pics (level : Bool) (s : State) : (nmiEdge level s).pics = s.pics := rfl
@[simp] theorem nmiEdge_mem (level : Bool) (s : State) : (nmiEdge level s).mem = s.mem := rfl
@[simp] theorem nmiEdge_ports (level : Bool) (s : State) : (nmiEdge level s).ports = s.ports := rfl
@[simp] theorem nmiEdge_deliveries (level : Bool) (s : State) : (nmiEdge level s).deliveries = s.deliveries := rfl
@[simp] theorem nmiEdge_env (level : Bool) (s : State) : (nmiEdge level s).env = s.env := rfl
@[simp] theorem nmiEdge_params (level : Bool) (s : State) : (nmiEdge level s).params = s.params := rfl

@[simp] theorem dropInput_cpu (s : State) : (dropInput s).cpu = s.cpu := rfl
@[simp] theorem dropInput_eu (s : State) : (dropInput s).eu = s.eu := rfl
@[simp] theorem dropInput_progress (s : State) : (dropInput s).progress = s.progress := rfl
@[simp] theorem dropInput_biu (s : State) : (dropInput s).biu = s.biu := rfl
@[simp] theorem dropInput_nmiLatch (s : State) : (dropInput s).nmiLatch = s.nmiLatch := rfl
@[simp] theorem dropInput_nmiPrev (s : State) : (dropInput s).nmiPrev = s.nmiPrev := rfl
@[simp] theorem dropInput_busFaults (s : State) : (dropInput s).busFaults = s.busFaults := rfl
@[simp] theorem dropInput_stopped (s : State) : (dropInput s).stopped = s.stopped := rfl
@[simp] theorem dropInput_pics (s : State) : (dropInput s).pics = s.pics := rfl
@[simp] theorem dropInput_mem (s : State) : (dropInput s).mem = s.mem := rfl
@[simp] theorem dropInput_ports (s : State) : (dropInput s).ports = s.ports := rfl
@[simp] theorem dropInput_deliveries (s : State) : (dropInput s).deliveries = s.deliveries := rfl
@[simp] theorem dropInput_env (s : State) : (dropInput s).env = { s.env with inputs := s.env.inputs.tail } := rfl
@[simp] theorem dropInput_params (s : State) : (dropInput s).params = s.params := rfl

@[simp] theorem busFault_cpu (kind : BusKind) (a : Nat) (s : State) : (busFault kind a s).cpu = s.cpu := rfl
@[simp] theorem busFault_eu (kind : BusKind) (a : Nat) (s : State) : (busFault kind a s).eu = s.eu := rfl
@[simp] theorem busFault_progress (kind : BusKind) (a : Nat) (s : State) : (busFault kind a s).progress = s.progress := rfl
@[simp] theorem busFault_biu (kind : BusKind) (a : Nat) (s : State) : (busFault kind a s).biu = s.biu := rfl
@[simp] theorem busFault_nmiLatch (kind : BusKind) (a : Nat) (s : State) : (busFault kind a s).nmiLatch = if s.params.busFaultNmi then true else s.nmiLatch := rfl
@[simp] theorem busFault_nmiPrev (kind : BusKind) (a : Nat) (s : State) : (busFault kind a s).nmiPrev = s.nmiPrev := rfl
@[simp] theorem busFault_busFaults (kind : BusKind) (a : Nat) (s : State) : (busFault kind a s).busFaults = s.busFaults ++ [⟨kind, a⟩] := rfl
@[simp] theorem busFault_stopped (kind : BusKind) (a : Nat) (s : State) : (busFault kind a s).stopped = s.stopped := rfl
@[simp] theorem busFault_pics (kind : BusKind) (a : Nat) (s : State) : (busFault kind a s).pics = s.pics := rfl
@[simp] theorem busFault_mem (kind : BusKind) (a : Nat) (s : State) : (busFault kind a s).mem = s.mem := rfl
@[simp] theorem busFault_ports (kind : BusKind) (a : Nat) (s : State) : (busFault kind a s).ports = s.ports := rfl
@[simp] theorem busFault_deliveries (kind : BusKind) (a : Nat) (s : State) : (busFault kind a s).deliveries = s.deliveries := rfl
@[simp] theorem busFault_env (kind : BusKind) (a : Nat) (s : State) : (busFault kind a s).env = s.env := rfl
@[simp] theorem busFault_params (kind : BusKind) (a : Nat) (s : State) : (busFault kind a s).params = s.params := rfl

@[simp] theorem faultedState_cpu (s : State) : (faultedState s).cpu = { s.cpu with ip := s.eu.start } := rfl
@[simp] theorem faultedState_eu (s : State) : (faultedState s).eu = { s.eu with faulted := some ⟨s.cpu.cs, s.eu.start, s.eu.fetched⟩ } := rfl
@[simp] theorem faultedState_progress (s : State) : (faultedState s).progress = none := rfl
@[simp] theorem faultedState_biu (s : State) : (faultedState s).biu = s.biu := rfl
@[simp] theorem faultedState_nmiLatch (s : State) : (faultedState s).nmiLatch = s.nmiLatch := rfl
@[simp] theorem faultedState_nmiPrev (s : State) : (faultedState s).nmiPrev = s.nmiPrev := rfl
@[simp] theorem faultedState_busFaults (s : State) : (faultedState s).busFaults = s.busFaults := rfl
@[simp] theorem faultedState_stopped (s : State) : (faultedState s).stopped = s.stopped := rfl
@[simp] theorem faultedState_pics (s : State) : (faultedState s).pics = s.pics := rfl
@[simp] theorem faultedState_mem (s : State) : (faultedState s).mem = s.mem := rfl
@[simp] theorem faultedState_ports (s : State) : (faultedState s).ports = s.ports := rfl
@[simp] theorem faultedState_deliveries (s : State) : (faultedState s).deliveries = s.deliveries := rfl
@[simp] theorem faultedState_env (s : State) : (faultedState s).env = s.env := rfl
@[simp] theorem faultedState_params (s : State) : (faultedState s).params = s.params := rfl

@[simp] theorem beginInstr_cpu (s : State) : (beginInstr s).cpu = s.cpu := rfl
@[simp] theorem beginInstr_eu (s : State) : (beginInstr s).eu = { clearPrefixes s.cpu.ip s.eu with
        trapArmed := s.cpu.flags.tf, selfEntered := false, shadow := false } := rfl
@[simp] theorem beginInstr_progress (s : State) : (beginInstr s).progress = s.progress := rfl
@[simp] theorem beginInstr_biu (s : State) : (beginInstr s).biu = s.biu := rfl
@[simp] theorem beginInstr_nmiLatch (s : State) : (beginInstr s).nmiLatch = s.nmiLatch := rfl
@[simp] theorem beginInstr_nmiPrev (s : State) : (beginInstr s).nmiPrev = s.nmiPrev := rfl
@[simp] theorem beginInstr_busFaults (s : State) : (beginInstr s).busFaults = s.busFaults := rfl
@[simp] theorem beginInstr_stopped (s : State) : (beginInstr s).stopped = s.stopped := rfl
@[simp] theorem beginInstr_pics (s : State) : (beginInstr s).pics = s.pics := rfl
@[simp] theorem beginInstr_mem (s : State) : (beginInstr s).mem = s.mem := rfl
@[simp] theorem beginInstr_ports (s : State) : (beginInstr s).ports = s.ports := rfl
@[simp] theorem beginInstr_deliveries (s : State) : (beginInstr s).deliveries = s.deliveries := rfl
@[simp] theorem beginInstr_env (s : State) : (beginInstr s).env = s.env := rfl
@[simp] theorem beginInstr_params (s : State) : (beginInstr s).params = s.params := rfl

@[simp] theorem beginWork_cpu (w : Work) (s : State) : (beginWork w s).cpu = s.cpu := rfl
@[simp] theorem beginWork_eu (w : Work) (s : State) : (beginWork w s).eu = s.eu := rfl
@[simp] theorem beginWork_progress (w : Work) (s : State) : (beginWork w s).progress = some ⟨w, s.cpu, []⟩ := rfl
@[simp] theorem beginWork_biu (w : Work) (s : State) : (beginWork w s).biu = s.biu := rfl
@[simp] theorem beginWork_nmiLatch (w : Work) (s : State) : (beginWork w s).nmiLatch = s.nmiLatch := rfl
@[simp] theorem beginWork_nmiPrev (w : Work) (s : State) : (beginWork w s).nmiPrev = s.nmiPrev := rfl
@[simp] theorem beginWork_busFaults (w : Work) (s : State) : (beginWork w s).busFaults = s.busFaults := rfl
@[simp] theorem beginWork_stopped (w : Work) (s : State) : (beginWork w s).stopped = s.stopped := rfl
@[simp] theorem beginWork_pics (w : Work) (s : State) : (beginWork w s).pics = s.pics := rfl
@[simp] theorem beginWork_mem (w : Work) (s : State) : (beginWork w s).mem = s.mem := rfl
@[simp] theorem beginWork_ports (w : Work) (s : State) : (beginWork w s).ports = s.ports := rfl
@[simp] theorem beginWork_deliveries (w : Work) (s : State) : (beginWork w s).deliveries = s.deliveries := rfl
@[simp] theorem beginWork_env (w : Work) (s : State) : (beginWork w s).env = s.env := rfl
@[simp] theorem beginWork_params (w : Work) (s : State) : (beginWork w s).params = s.params := rfl

@[simp] theorem view_cpu (s : State) : (view s).cpu = s.cpu := rfl
@[simp] theorem view_eu (s : State) : (view s).eu = s.eu := rfl
@[simp] theorem view_mem (s : State) : (view s).mem = s.mem := rfl
@[simp] theorem view_ports (s : State) : (view s).ports = s.ports := rfl
@[simp] theorem view_pics (s : State) : (view s).pics = s.pics := rfl
@[simp] theorem view_deliveries (s : State) : (view s).deliveries = s.deliveries := rfl
@[simp] theorem view_params (s : State) : (view s).params = s.params := rfl
@[simp] theorem setCpu_eu (f : Cpu → Cpu) (v : View) : (v.setCpu f).eu = v.eu := rfl
@[simp] theorem setCpu_mem (f : Cpu → Cpu) (v : View) : (v.setCpu f).mem = v.mem := rfl
@[simp] theorem setCpu_ports (f : Cpu → Cpu) (v : View) : (v.setCpu f).ports = v.ports := rfl
@[simp] theorem setCpu_pics (f : Cpu → Cpu) (v : View) : (v.setCpu f).pics = v.pics := rfl
@[simp] theorem setCpu_deliveries (f : Cpu → Cpu) (v : View) : (v.setCpu f).deliveries = v.deliveries := rfl
@[simp] theorem setCpu_params (f : Cpu → Cpu) (v : View) : (v.setCpu f).params = v.params := rfl
@[simp] theorem setCpu_cpu (f : Cpu → Cpu) (v : View) : (v.setCpu f).cpu = f v.cpu := rfl
@[simp] theorem done_cpu (v : View) : v.done.cpu = v.cpu := rfl
@[simp] theorem done_mem (v : View) : v.done.mem = v.mem := rfl
@[simp] theorem done_ports (v : View) : v.done.ports = v.ports := rfl
@[simp] theorem done_pics (v : View) : v.done.pics = v.pics := rfl
@[simp] theorem done_deliveries (v : View) : v.done.deliveries = v.deliveries := rfl
@[simp] theorem done_params (v : View) : v.done.params = v.params := rfl

@[simp] theorem setFlagsView_cpu (f : Flags → Flags) (v : View) : (v.setFlags f).cpu = { v.cpu with flags := f v.cpu.flags } := rfl
@[simp] theorem setFlagsView_eu (f : Flags → Flags) (v : View) : (v.setFlags f).eu = v.eu := rfl
@[simp] theorem setFlagsView_mem (f : Flags → Flags) (v : View) : (v.setFlags f).mem = v.mem := rfl
@[simp] theorem setFlagsView_ports (f : Flags → Flags) (v : View) : (v.setFlags f).ports = v.ports := rfl
@[simp] theorem setFlagsView_pics (f : Flags → Flags) (v : View) : (v.setFlags f).pics = v.pics := rfl
@[simp] theorem setFlagsView_deliveries (f : Flags → Flags) (v : View) : (v.setFlags f).deliveries = v.deliveries := rfl
@[simp] theorem setFlagsView_params (f : Flags → Flags) (v : View) : (v.setFlags f).params = v.params := rfl
@[simp] theorem setEuView_cpu (f : Eu → Eu) (v : View) : (v.setEu f).cpu = v.cpu := rfl
@[simp] theorem setEuView_eu (f : Eu → Eu) (v : View) : (v.setEu f).eu = f v.eu := rfl
@[simp] theorem setEuView_mem (f : Eu → Eu) (v : View) : (v.setEu f).mem = v.mem := rfl
@[simp] theorem setEuView_ports (f : Eu → Eu) (v : View) : (v.setEu f).ports = v.ports := rfl
@[simp] theorem setEuView_pics (f : Eu → Eu) (v : View) : (v.setEu f).pics = v.pics := rfl
@[simp] theorem setEuView_deliveries (f : Eu → Eu) (v : View) : (v.setEu f).deliveries = v.deliveries := rfl
@[simp] theorem setEuView_params (f : Eu → Eu) (v : View) : (v.setEu f).params = v.params := rfl
@[simp] theorem setIpView_cpu (ip : Word) (v : View) : (v.setIp ip).cpu = { v.cpu with ip := ip } := rfl
@[simp] theorem setIpView_eu (ip : Word) (v : View) : (v.setIp ip).eu = v.eu := rfl
@[simp] theorem setIpView_mem (ip : Word) (v : View) : (v.setIp ip).mem = v.mem := rfl
@[simp] theorem setIpView_ports (ip : Word) (v : View) : (v.setIp ip).ports = v.ports := rfl
@[simp] theorem setIpView_pics (ip : Word) (v : View) : (v.setIp ip).pics = v.pics := rfl
@[simp] theorem setIpView_deliveries (ip : Word) (v : View) : (v.setIp ip).deliveries = v.deliveries := rfl
@[simp] theorem setIpView_params (ip : Word) (v : View) : (v.setIp ip).params = v.params := rfl
@[simp] theorem addSpView_cpu (n : Word) (v : View) : (v.addSp n).cpu = { v.cpu with sp := v.cpu.sp + n } := rfl
@[simp] theorem addSpView_eu (n : Word) (v : View) : (v.addSp n).eu = v.eu := rfl
@[simp] theorem addSpView_mem (n : Word) (v : View) : (v.addSp n).mem = v.mem := rfl
@[simp] theorem addSpView_ports (n : Word) (v : View) : (v.addSp n).ports = v.ports := rfl
@[simp] theorem addSpView_pics (n : Word) (v : View) : (v.addSp n).pics = v.pics := rfl
@[simp] theorem addSpView_deliveries (n : Word) (v : View) : (v.addSp n).deliveries = v.deliveries := rfl
@[simp] theorem addSpView_params (n : Word) (v : View) : (v.addSp n).params = v.params := rfl
@[simp] theorem jumpFarView_cpu (seg off : Word) (v : View) : (v.jumpFar seg off).cpu = { v.cpu with cs := seg, ip := off } := rfl
@[simp] theorem jumpFarView_eu (seg off : Word) (v : View) : (v.jumpFar seg off).eu = v.eu := rfl
@[simp] theorem jumpFarView_mem (seg off : Word) (v : View) : (v.jumpFar seg off).mem = v.mem := rfl
@[simp] theorem jumpFarView_ports (seg off : Word) (v : View) : (v.jumpFar seg off).ports = v.ports := rfl
@[simp] theorem jumpFarView_pics (seg off : Word) (v : View) : (v.jumpFar seg off).pics = v.pics := rfl
@[simp] theorem jumpFarView_deliveries (seg off : Word) (v : View) : (v.jumpFar seg off).deliveries = v.deliveries := rfl
@[simp] theorem jumpFarView_params (seg off : Word) (v : View) : (v.jumpFar seg off).params = v.params := rfl

@[simp] theorem store8_cpu (v : View) (seg off : Word) (b : Byte) : (v.store8 seg off b).cpu = v.cpu := by
  unfold View.store8
  split <;> rfl
@[simp] theorem store16_cpu (v : View) (seg off w : Word) : (v.store16 seg off w).cpu = v.cpu := by
  simp [View.store16]
@[simp] theorem store8_eu (v : View) (seg off : Word) (b : Byte) : (v.store8 seg off b).eu = v.eu := by
  unfold View.store8
  split <;> rfl
@[simp] theorem store16_eu (v : View) (seg off w : Word) : (v.store16 seg off w).eu = v.eu := by
  simp [View.store16]
@[simp] theorem store8_ports (v : View) (seg off : Word) (b : Byte) : (v.store8 seg off b).ports = v.ports := by
  unfold View.store8
  split <;> rfl
@[simp] theorem store16_ports (v : View) (seg off w : Word) : (v.store16 seg off w).ports = v.ports := by
  simp [View.store16]
@[simp] theorem store8_pics (v : View) (seg off : Word) (b : Byte) : (v.store8 seg off b).pics = v.pics := by
  unfold View.store8
  split <;> rfl
@[simp] theorem store16_pics (v : View) (seg off w : Word) : (v.store16 seg off w).pics = v.pics := by
  simp [View.store16]
@[simp] theorem store8_params (v : View) (seg off : Word) (b : Byte) : (v.store8 seg off b).params = v.params := by
  unfold View.store8
  split <;> rfl
@[simp] theorem store16_params (v : View) (seg off w : Word) : (v.store16 seg off w).params = v.params := by
  simp [View.store16]
@[simp] theorem push_eu (v : View) (w : Word) : (v.push w).eu = v.eu := by
  simp [View.push]
@[simp] theorem push_ports (v : View) (w : Word) : (v.push w).ports = v.ports := by
  simp [View.push]
@[simp] theorem push_pics (v : View) (w : Word) : (v.push w).pics = v.pics := by
  simp [View.push]
@[simp] theorem push_params (v : View) (w : Word) : (v.push w).params = v.params := by
  simp [View.push]
@[simp] theorem push_cpu (v : View) (w : Word) : (v.push w).cpu = { v.cpu with sp := v.cpu.sp - 2 } := by
  simp [View.push]
@[simp] theorem enterFrame_cpu (v : View) (ret : Word) : (v.enterFrame ret).cpu =
    { v.cpu with sp := v.cpu.sp - 2 - 2 - 2, flags := { v.cpu.flags with tf := false, intf := false } } := by
  simp [View.enterFrame]
@[simp] theorem enterFrame_params (v : View) (ret : Word) : (v.enterFrame ret).params = v.params := by
  simp [View.enterFrame]
@[simp] theorem enterFrame_eu (v : View) (ret : Word) :
    (v.enterFrame ret).eu = { v.eu with selfEntered := true } := by
  simp [View.enterFrame]

end Sys2Proof.Machine
end

