-- ==== Sys2Proof/Laws/Bus.lean ====
section
/-! SUPPORT. What ticks do while nothing disturbs the CPU, and what one bus access of the Execution Engine
does: it completes, and on the view it has the effect of its data phase alone. -/

namespace Sys2Proof.Machine

/-! ### The data phase -/

/-- The parts of a state that a data phase never changes. -/
def sameCore (s t : State) : Prop :=
  t.cpu = s.cpu ∧ t.eu = s.eu ∧ t.biu = s.biu ∧ t.stopped = s.stopped ∧ t.params = s.params ∧
    t.env.inputs = s.env.inputs

theorem sameCore_rfl (s : State) : sameCore s s := ⟨rfl, rfl, rfl, rfl, rfl, rfl⟩

theorem sampleMemory_core (k : BusKind) (a : Nat) (s : State) : sameCore s (sampleMemory k a s).2 := by
  unfold sampleMemory
  split <;> exact ⟨rfl, rfl, rfl, rfl, rfl, rfl⟩

theorem depositMemory_core (k : BusKind) (a : Nat) (b : Byte) (s : State) :
    sameCore s (depositMemory k a b s) := by
  unfold depositMemory
  split <;> exact ⟨rfl, rfl, rfl, rfl, rfl, rfl⟩

theorem samplePort_core (p : Word) (s : State) : sameCore s (samplePort p s).2 := by
  unfold samplePort
  split
  · exact ⟨rfl, rfl, rfl, rfl, rfl, rfl⟩
  · split <;> exact ⟨rfl, rfl, rfl, rfl, rfl, rfl⟩

theorem depositPort_core (p : Word) (b : Byte) (s : State) : sameCore s (depositPort p b s) := by
  unfold depositPort
  split
  · exact ⟨rfl, rfl, rfl, rfl, rfl, rfl⟩
  · split <;> exact ⟨rfl, rfl, rfl, rfl, rfl, rfl⟩

theorem sampleInta_core (second : Bool) (s : State) : sameCore s (sampleInta second s).2 := by
  unfold sampleInta
  simp only
  split <;> exact ⟨rfl, rfl, rfl, rfl, rfl, rfl⟩

/-- A data phase changes only memory, ports, controllers, deliveries, BusFaults, the NMI latch and draws. -/
theorem dataPhase_core (t : Txn) (s : State) : sameCore s (dataPhase t s).2 := by
  unfold dataPhase
  split
  · exact sampleMemory_core _ _ _
  · exact sampleMemory_core _ _ _
  · exact depositMemory_core _ _ _ _
  · exact samplePort_core _ _
  · exact depositPort_core _ _ _
  · exact sampleInta_core _ _
  · exact sameCore_rfl s

theorem sampleMemory_view (k : BusKind) (a : Nat) (s : State) :
    view (sampleMemory k a s).2 = view s := by
  unfold sampleMemory
  split <;> rfl

/-- An instruction fetch changes nothing of the view. -/
theorem dataPhase_fetch_view {t : Txn} (h : t.kind = .instructionFetch) (s : State) :
    view (dataPhase t s).2 = view s := by
  unfold dataPhase
  split <;> first
    | exact sampleMemory_view _ _ _
    | (rename_i h1 _; rw [h] at h1; cases h1)
    | rfl

/-- A memory read gives the byte stored where RAM or ROM stands. -/
theorem sampleMemory_holds (k : BusKind) (seg off : Word) (s : State) :
    (view s).Holds8 seg off (sampleMemory k (phys seg off) s).1 := by
  intro h
  unfold sampleMemory
  rcases h with h | h <;> · simp only [view_params] at h; rw [h]; rfl

/-- A memory write, on the view. -/
theorem depositMemory_view (k : BusKind) (seg off : Word) (b : Byte) (s : State) :
    view (depositMemory k (phys seg off) b s) = (view s).store8 seg off b := by
  simp only [depositMemory, View.store8, view_params]
  cases h : regionKind s.params.memMap (phys seg off) with
  | none => rfl
  | some k => cases k <;> rfl

/-- A port read, on the view. -/
theorem samplePort_view (p : Word) (s : State) : view (samplePort p s).2 = (view s).portRead p := by
  simp only [samplePort, View.portRead, view_params, view_pics]
  cases picPort s.params.picBase s.pics p with
  | some x => rfl
  | none =>
    cases regionKind s.params.portMap p.toNat with
    | none => rfl
    | some k => cases k <;> rfl

/-- What a port read gives. -/
theorem samplePort_holds (p : Word) (s : State) : (view s).PortHolds p (samplePort p s).1 := by
  simp only [samplePort, View.PortHolds, view_params, view_pics, view_ports]
  cases picPort s.params.picBase s.pics p with
  | some x => rfl
  | none =>
    intro h
    rcases h with h | h <;> simp [h]

/-- A port write, on the view. -/
theorem depositPort_view (p : Word) (b : Byte) (s : State) :
    view (depositPort p b s) = (view s).portWrite p b := by
  simp only [depositPort, View.portWrite, view_params, view_pics]
  cases picPort s.params.picBase s.pics p with
  | some x => rfl
  | none =>
    cases h : regionKind s.params.portMap p.toNat with
    | none => rfl
    | some k => cases k <;> rfl

/-! ### One calm tick -/

/-- A HOLD requester that does nothing changes nothing. -/
theorem holdAccesses_nil (s : State) : holdAccesses [] s = s := by
  unfold holdAccesses
  split <;> rfl

/-- While the inputs are calm the next tick is one phase step of the Bus Cycle Engine, from a state that
differs only in the environment and the NMI latch; HOLD is low once the inputs are used up. -/
theorem nextTick_calm {s : State} (hf : frozen s = false) (hc : Calm s.env.inputs) :
    ∃ s0 hold, nextTick s = busStep hold s0 ∧ s0.biu = s.biu ∧ view s0 = view s ∧
      s0.stopped = s.stopped ∧ s0.env.inputs = s.env.inputs.tail ∧ (s.env.inputs = [] → hold = false) := by
  have key : ∀ i : TickIn, i.reset = false → i.stop = false → i.irq = [] → i.dma = [] →
      ∀ u : State, frozen u = false → tick i u =
        busStep i.hold (nmiEdge i.nmi { u with env := { u.env with test := i.test } }) := by
    intro i h1 h2 h3 h4 u hu
    have hu' : frozen { u with env := { u.env with test := i.test } } = false := hu
    simp only [tick, h1, h2, h3, irqEvents, Bool.false_eq_true, if_false, hu']
    rw [h4]
    exact holdAccesses_nil _
  have hd : frozen (dropInput s) = false := hf
  cases hi : s.env.inputs with
  | nil =>
    refine ⟨nmiEdge false { dropInput s with env := { (dropInput s).env with test := s.params.idleTest } },
      false, ?_, rfl, rfl, rfl, ?_, fun _ => rfl⟩
    · have hn : nextInput s = idleInput s := by simp [nextInput, hi]
      rw [nextTick, hn]
      exact key (idleInput s) rfl rfl rfl rfl (dropInput s) hd
    · simp [hi]
  | cons i rest =>
    have hn : nextInput s = i := by simp [nextInput, hi]
    obtain ⟨h1, h2, h3, h4⟩ := hc i (by simp [hi])
    refine ⟨nmiEdge i.nmi { dropInput s with env := { (dropInput s).env with test := i.test } },
      i.hold, ?_, rfl, rfl, rfl, ?_, fun h => by simp at h⟩
    · rw [nextTick, hn]
      exact key i h1 h2 h3 h4 (dropInput s) hd
    · simp [hi]

theorem calm_tail {l : List TickIn} (h : Calm l) : Calm l.tail := fun i hi => h i (List.mem_of_mem_tail hi)

theorem nextInput_calm {s : State} (hc : Calm s.env.inputs) : (nextInput s).reset = false := by
  cases hi : s.env.inputs with
  | nil => simp [nextInput, hi, idleInput]
  | cons i rest =>
    have : nextInput s = i := by simp [nextInput, hi]
    rw [this]
    exact (hc i (by simp [hi])).1

/-- `frozen` as a condition on two fields. -/
theorem frozen_congr {s t : State} (h1 : t.stopped = s.stopped) (h2 : t.eu = s.eu) :
    frozen t = frozen s := by simp [frozen, h1, h2]

theorem view_eu_eq {s t : State} (h : view t = view s) : t.eu = s.eu := congrArg View.eu h

theorem view_cpu_eq {s t : State} (h : view t = view s) : t.cpu = s.cpu := congrArg View.cpu h

theorem view_params_eq {s t : State} (h : view t = view s) : t.params = s.params := congrArg View.params h

/-! ### Waiting for a request -/

/-- How many ticks a request waits at most for a bus in this state, without HOLD. -/
def busCost : Bus → Nat
  | .passive => 4
  | .held => 5
  | .busy t =>
    (match t.phase with
      | .none => 4
      | .address => 3
      | .status => 2
      | .data => 1
      | .clear => 0) + (if t.owner = .eu ∧ t.phase ≠ .clear then 0 else 4)

/-- How many ticks a request waits at most. -/
def waitCost (s : State) : Nat := 6 * s.env.inputs.length + busCost s.biu.bus

theorem busCost_le (b : Bus) : busCost b ≤ 8 := by
  cases b with
  | passive => decide
  | held => decide
  | busy t =>
    rcases t with ⟨kind, target, data, phase, owner, stale⟩
    cases phase <;> cases owner <;> simp [busCost]

/-- The transaction of a request (R134). -/
def txnOf (r : Request) : Txn := ⟨r.kind, r.target, r.data, .address, .eu, false⟩

/-- The request is pending and its data phase is still to come. -/
def Waiting (r : Request) (s : State) : Prop :=
  s.biu.euReq = some r ∧
    (busQuiet s.biu.bus = true ∨ s.biu.bus = .busy (txnOf r) ∨
      s.biu.bus = .busy { txnOf r with phase := .status })

/-- The request is pending and its data phase has just passed with the byte `b`. -/
def Sampled (r : Request) (b : Byte) (s : State) : Prop :=
  s.biu.euReq = some r ∧ s.biu.bus = .busy { txnOf r with phase := .data, data := b }

/-- The data phase does not look at the phase of the record. -/
theorem dataPhase_phase (t : Txn) (p : Phase) (s : State) :
    dataPhase { t with phase := p } s = dataPhase t s := rfl

/-- Arbitration for a pending request: it starts, or HOLD is granted. -/
theorem arbitrate_waiting {r : Request} {s : State} {hold : Bool} (h : s.biu.euReq = some r) :
    arbitrate hold s = setBus (.busy (txnOf r)) s ∨
      (hold = true ∧ arbitrate hold s = { s with biu := { s.biu with bus := .held, hlda := true } }) := by
  unfold arbitrate
  split
  · rename_i h1
    right
    simp only [Bool.and_eq_true] at h1
    exact ⟨h1.1, rfl⟩
  · left
    rw [h]
    rfl

/-- One phase step while a request waits: it waits on, nearer to its turn, or its data phase passes. -/
theorem busStep_waiting {r : Request} {s : State} {hold : Bool} (hw : Waiting r s) :
    (Waiting r (busStep hold s) ∧ view (busStep hold s) = view s ∧ (busStep hold s).stopped = s.stopped ∧
      (busStep hold s).env.inputs = s.env.inputs ∧ deliveredByte (busStep hold s) = none ∧
      (busCost (busStep hold s).biu.bus < busCost s.biu.bus ∨
        (hold = true ∧ busCost (busStep hold s).biu.bus ≤ busCost s.biu.bus + 1))) ∨
    (busStep hold s = setBus (.busy { txnOf r with phase := .data, data := (dataPhase (txnOf r) s).1 })
        (dataPhase (txnOf r) s).2 ∧ 1 < busCost s.biu.bus) := by
  obtain ⟨hreq, hbus⟩ := hw
  have arb : (busStep hold s = arbitrate hold s) → (busCost s.biu.bus = 4) →
      Waiting r (busStep hold s) ∧ view (busStep hold s) = view s ∧
        (busStep hold s).stopped = s.stopped ∧ (busStep hold s).env.inputs = s.env.inputs ∧
        deliveredByte (busStep hold s) = none ∧
        (busCost (busStep hold s).biu.bus < busCost s.biu.bus ∨
          (hold = true ∧ busCost (busStep hold s).biu.bus ≤ busCost s.biu.bus + 1)) := by
    intro he hcost
    rw [he, hcost]
    rcases arbitrate_waiting (hold := hold) hreq with h | ⟨hh, h⟩
    · rw [h]
      exact ⟨⟨hreq, Or.inr (Or.inl rfl)⟩, rfl, rfl, rfl, rfl, Or.inl (by simp [busCost, txnOf])⟩
    · rw [h]
      exact ⟨⟨hreq, Or.inl rfl⟩, rfl, rfl, rfl, rfl, Or.inr ⟨hh, by simp [busCost]⟩⟩
  rcases hbus with hq | hb | hb
  · cases hb : s.biu.bus with
    | passive =>
      left
      rw [← hb]
      exact arb (by simp [busStep, hb]) (by simp [hb, busCost])
    | held =>
      left
      by_cases hh : hold = true
      · have he : busStep hold s = s := by simp [busStep, hb, hh]
        rw [he]
        exact ⟨⟨hreq, Or.inl hq⟩, rfl, rfl, rfl, by simp [deliveredByte, hb], Or.inr ⟨hh, by simp [hb]⟩⟩
      · have he : busStep hold s = { s with biu := { s.biu with bus := .passive, hlda := false } } := by
          simp [busStep, hb, hh]
        rw [he]
        exact ⟨⟨hreq, Or.inl rfl⟩, rfl, rfl, rfl, rfl, Or.inl (by simp [busCost])⟩
    | busy t =>
      left
      rw [hb] at hq
      simp only [busQuiet, Bool.or_eq_true, decide_eq_true_eq, Bool.and_eq_true] at hq
      rcases t with ⟨kind, target, data, phase, owner, stale⟩
      rcases hq with hq | ⟨ho, hk⟩
      · simp only at hq
        subst hq
        rw [← hb]
        exact arb (by simp [busStep, hb]) (by simp [hb, busCost])
      · simp only at ho hk
        subst ho hk
        cases phase with
        | none =>
          have he : busStep hold s =
              setBus (.busy ⟨.instructionFetch, target, data, .address, .prefetch, stale⟩) s := by
            simp [busStep, hb]
          rw [he]
          exact ⟨⟨hreq, Or.inl rfl⟩, rfl, rfl, rfl, by simp [deliveredByte], Or.inl (by simp [busCost])⟩
        | address =>
          have he : busStep hold s =
              setBus (.busy ⟨.instructionFetch, target, data, .status, .prefetch, stale⟩) s := by
            simp [busStep, hb]
          rw [he]
          exact ⟨⟨hreq, Or.inl rfl⟩, rfl, rfl, rfl, by simp [deliveredByte], Or.inl (by simp [busCost])⟩
        | status =>
          have he : busStep hold s = setBus (.busy ⟨.instructionFetch, target,
              (dataPhase ⟨.instructionFetch, target, data, .status, .prefetch, stale⟩ s).1, .data,
              .prefetch, stale⟩) (dataPhase ⟨.instructionFetch, target, data, .status, .prefetch, stale⟩ s).2 := by
            simp [busStep, hb]
          obtain ⟨c1, c2, c3, c4, c5, c6⟩ :=
            dataPhase_core ⟨.instructionFetch, target, data, .status, .prefetch, stale⟩ s
          rw [he]
          refine ⟨⟨?_, Or.inl rfl⟩, ?_, c4, c6, by simp [deliveredByte], Or.inl (by simp [busCost])⟩
          · simp [c3, hreq]
          · exact dataPhase_fetch_view rfl s
        | data =>
          have he : busStep hold s = finishTxn ⟨.instructionFetch, target, data, .data, .prefetch, stale⟩
              (setBus (.busy ⟨.instructionFetch, target, data, .clear, .prefetch, stale⟩) s) := by
            simp [busStep, hb]
          rw [he]
          cases stale <;>
            exact ⟨⟨hreq, Or.inl rfl⟩, rfl, rfl, rfl, by simp [deliveredByte, finishTxn],
              Or.inl (by simp [finishTxn, busCost])⟩
        | clear =>
          rw [← hb]
          exact arb (by simp [busStep, hb]) (by simp [hb, busCost])
  · left
    have he : busStep hold s = setBus (.busy { txnOf r with phase := .status }) s := by
      simp [busStep, hb, txnOf]
    rw [he]
    exact ⟨⟨hreq, Or.inr (Or.inr rfl)⟩, rfl, rfl, rfl, by simp [deliveredByte, txnOf],
      Or.inl (by simp [busCost, hb, txnOf])⟩
  · right
    exact ⟨by simp [busStep, hb, dataPhase_phase], by simp [busCost, hb, txnOf]⟩

/-- The state in which a request's byte has been delivered is ready again. -/
theorem awaitBus_sampled {r : Request} {b : Byte} {s : State} {n : Nat} (hs : Sampled r b s)
    (hf : frozen s = false) (hc : Calm s.env.inputs) :
    ∃ t, awaitBus (n + 1) s = .ok b t ∧ Ready t ∧ view t = view s ∧ t.stopped = s.stopped ∧
      t.biu.lockOut = s.biu.lockOut := by
  obtain ⟨hreq, hbus⟩ := hs
  obtain ⟨s0, hold, hn, hb0, hv0, hst0, hi0, -⟩ := nextTick_calm hf hc
  have he : nextTick s = finishTxn { txnOf r with phase := .data, data := b }
      (setBus (.busy { txnOf r with phase := .clear, data := b }) s0) := by
    rw [hn]
    simp [busStep, hb0, hbus, txnOf]
  have hft : frozen (nextTick s) = false := by
    rw [he, ← hf]
    exact frozen_congr hst0 (view_eu_eq hv0)
  refine ⟨nextTick s, ?_, ⟨hft, ⟨?_, ?_⟩, ?_⟩, ?_, ?_, ?_⟩
  · have hd : deliveredByte (nextTick s) = some b := by
      rw [he]
      simp [deliveredByte, finishTxn, txnOf]
    simp [awaitBus, passTick, bind, EStateM.bind, nextInput_calm hc, hft, readS, hd, pure, EStateM.pure]
  · rw [he]; rfl
  · rw [he]; rfl
  · rw [he]
    have : (finishTxn { txnOf r with phase := .data, data := b }
      (setBus (.busy { txnOf r with phase := .clear, data := b }) s0)).env.inputs = s0.env.inputs := rfl
    rw [this, hi0]
    exact calm_tail hc
  · rw [he]
    exact hv0
  · rw [he]
    exact hst0
  · rw [he]
    show s0.biu.lockOut = _
    rw [hb0]

/-- A waiting request completes; on the view only its data phase acts. -/
theorem awaitBus_waiting {r : Request} (n : Nat) {s : State} (hw : Waiting r s) (hf : frozen s = false)
    (hc : Calm s.env.inputs) (hn : waitCost s ≤ n) :
    ∃ t s1, awaitBus n s = .ok (dataPhase (txnOf r) s1).1 t ∧ view s1 = view s ∧ Ready t ∧
      view t = view (dataPhase (txnOf r) s1).2 ∧ t.biu.lockOut = s.biu.lockOut := by
  induction n generalizing s with
  | zero =>
    exfalso
    have : busCost s.biu.bus = 0 := by unfold waitCost at hn; omega
    obtain ⟨-, h | h | h⟩ := hw
    · cases hb : s.biu.bus with
      | passive => rw [hb] at this; cases this
      | held => rw [hb] at this; cases this
      | busy t =>
        rw [hb] at this h
        simp only [busQuiet, Bool.or_eq_true, decide_eq_true_eq, Bool.and_eq_true] at h
        simp only [busCost] at this
        rcases h with h | ⟨h, -⟩ <;> simp [h] at this
    · rw [h] at this; cases this
    · rw [h] at this; cases this
  | succ n ih =>
    obtain ⟨s0, hold, hnt, hb0, hv0, hst0, hi0, hh0⟩ := nextTick_calm hf hc
    have hw0 : Waiting r s0 := by rw [Waiting, hb0]; exact hw
    have hft : frozen (nextTick s) = false := by
      rw [← hf]
      refine frozen_congr ?_ ?_
      · rw [hnt]
        rcases busStep_waiting (hold := hold) hw0 with h | ⟨h, -⟩
        · rw [h.2.2.1, hst0]
        · rw [h]
          show (dataPhase (txnOf r) s0).2.stopped = _
          rw [(dataPhase_core (txnOf r) s0).2.2.2.1, hst0]
      · rw [hnt]
        rcases busStep_waiting (hold := hold) hw0 with h | ⟨h, -⟩
        · rw [view_eu_eq h.2.1, view_eu_eq hv0]
        · rw [h]
          show (dataPhase (txnOf r) s0).2.eu = _
          rw [(dataPhase_core (txnOf r) s0).2.1, view_eu_eq hv0]
    have unroll : deliveredByte (nextTick s) = none → awaitBus (n + 1) s = awaitBus n (nextTick s) := by
      intro hd
      simp [awaitBus, passTick, bind, EStateM.bind, nextInput_calm hc, hft, readS, hd]
    rcases busStep_waiting (hold := hold) hw0 with h | ⟨h, hcost⟩
    · obtain ⟨h1, h2, h3, h4, h5, h6⟩ := h
      rw [← hnt] at h1 h2 h3 h4 h5 h6
      have hct : Calm (nextTick s).env.inputs := by rw [h4, hi0]; exact calm_tail hc
      have hlt : waitCost (nextTick s) ≤ n := by
        unfold waitCost at hn ⊢
        rw [h4, hi0, List.length_tail]
        rw [hb0] at h6
        rcases h6 with h6 | ⟨hh, h6⟩
        · omega
        · have hne : s.env.inputs.length ≠ 0 := by
            intro h0
            rw [hh0 (List.length_eq_zero_iff.mp h0)] at hh
            cases hh
          omega
      obtain ⟨t, s1, e1, e2, e3, e4, e5⟩ := ih h1 hft hct hlt
      refine ⟨t, s1, ?_, ?_, e3, e4, ?_⟩
      · rw [unroll h5, e1]
      · rw [e2, h2, hv0]
      · rw [e5]
        have hl : ∀ u : State, (busStep hold u).biu.lockOut = u.biu.lockOut := by
          intro u
          unfold busStep
          split
          · unfold arbitrate
            split
            · rfl
            · split
              · rfl
              · split <;> rfl
          · split <;> rfl
          · split
            · rfl
            · rfl
            · simp [(dataPhase_core _ u).2.2.1]
            · unfold finishTxn
              split
              · split <;> rfl
              · rfl
            · unfold arbitrate
              split
              · rfl
              · split
                · rfl
                · split <;> rfl
        rw [hnt, hl, hb0]
    · rw [← hnt] at h
      have hcore := dataPhase_core (txnOf r) s0
      have hs : Sampled r (dataPhase (txnOf r) s0).1 (nextTick s) := by
        rw [h]
        exact ⟨by simp [hcore.2.2.1, hb0, hw.1], rfl⟩
      have hct : Calm (nextTick s).env.inputs := by
        rw [h]
        show Calm (dataPhase (txnOf r) s0).2.env.inputs
        rw [hcore.2.2.2.2.2, hi0]
        exact calm_tail hc
      have hn1 : n = (n - 1) + 1 := by
        unfold waitCost at hn
        rw [hb0] at hcost
        omega
      obtain ⟨t, e1, e2, e3, -, e5⟩ := awaitBus_sampled (n := n - 1) hs hft hct
      refine ⟨t, s0, ?_, hv0, e2, ?_, ?_⟩
      · rw [unroll (by rw [h]; simp [deliveredByte, txnOf]), hn1, e1]
      · rw [e3, h]
        rfl
      · rw [e5, h]
        show (dataPhase (txnOf r) s0).2.biu.lockOut = _
        rw [hcore.2.2.1, hb0]

/-- One bus access: it completes ready again, and on the view it has the effect of its data phase. -/
theorem busAccess_ready (r : Request) {s : State} (h : Ready s) :
    ∃ t s1, busAccess r s = .ok (dataPhase (txnOf r) s1).1 t ∧ view s1 = view s ∧ Ready t ∧
      view t = view (dataPhase (txnOf r) s1).2 ∧ t.biu.lockOut = s.biu.lockOut := by
  obtain ⟨hf, ⟨-, hq⟩, hc⟩ := h
  let s' : State := { s with biu := { s.biu with euReq := some r } }
  have hw : Waiting r s' := ⟨rfl, Or.inl hq⟩
  have hcost : waitCost s' ≤ tickBound s' := by
    have := busCost_le s'.biu.bus
    unfold waitCost tickBound
    omega
  obtain ⟨t, s1, e1, e2, e3, e4, e5⟩ := awaitBus_waiting (tickBound s') hw hf hc hcost
  exact ⟨t, s1, e1, e2, e3, e4, e5⟩

end Sys2Proof.Machine
end

