-- ==== Sys2Proof/Laws/Decode.lean ====
section
/-! SUPPORT. The decoder's small lemmas: the fields of a ModRM byte, codes and the registers they name, an
operand read back from its encoding, and a decoding that more bytes do not change. -/

namespace Sys2Proof

/-! ### Fields and codes -/

theorem modOf_modrmByte (mode : Bits2) (reg rm : Bits3) : modOf (modrmByte mode reg rm) = mode := by
  revert mode reg rm
  decide

theorem regOf_modrmByte (mode : Bits2) (reg rm : Bits3) : regOf (modrmByte mode reg rm) = reg := by
  revert mode reg rm
  decide

theorem rmOf_modrmByte (mode : Bits2) (reg rm : Bits3) : rmOf (modrmByte mode reg rm) = rm := by
  revert mode reg rm
  decide

theorem reg8_ofCode_code (r : Reg8) : Reg8.ofCode r.code = r := by cases r <;> rfl

theorem reg16_ofCode_code (r : Reg16) : Reg16.ofCode r.code = r := by cases r <;> rfl

theorem sreg_ofCode_code (r : SReg) : SReg.ofCode r.code = r := by cases r <;> rfl

theorem base_ofCode_code (b : Base) : Base.ofCode b.code = b := by cases b <;> rfl

/-- The two bytes of a word give it back. -/
theorem wordOf_wordBytes (v : Word) : wordOf (v.extractLsb' 0 8) (v.extractLsb' 8 8) = v := by
  have h : ∀ w : BitVec (8 + 8), w.extractLsb' 8 8 ++ w.extractLsb' 0 8 = w := by
    intro w
    apply BitVec.eq_of_getLsbD_eq
    intro i hi
    simp only [BitVec.getLsbD_append, BitVec.getLsbD_extractLsb']
    by_cases h : i < 8
    · simp [h]
    · have h1 : i - 8 < 8 := by omega
      have h2 : 8 + (i - 8) = i := by omega
      simp [h, h1, h2]
  exact h v

/-! ### Operands -/

/-- A memory operand is read back from its displacement, with the ModRM fields of its encoding. -/
theorem decodeMem_encMem (reg : Bits3) (m : MemOp) (h : m.wf = true) :
    ∃ mode rm tail, encMem reg m = modrmByte mode reg rm :: tail ∧ mode ≠ 3 ∧
      ∀ rest, decodeMem mode rm (tail ++ rest) = some (m, rest) := by
  cases m with
  | ind b =>
    refine ⟨0, b.code, [], rfl, by decide, ?_⟩
    intro rest
    cases b <;> first | rfl | simp [MemOp.wf] at h
  | direct d =>
    refine ⟨0, 6, wordBytes d, rfl, by decide, ?_⟩
    intro rest
    simp [decodeMem, wordBytes, wordOf_wordBytes]
  | disp8 b d =>
    refine ⟨1, b.code, [d], rfl, by decide, ?_⟩
    intro rest
    simp [decodeMem, base_ofCode_code]
  | disp16 b d =>
    refine ⟨2, b.code, wordBytes d, rfl, by decide, ?_⟩
    intro rest
    simp [decodeMem, wordBytes, wordOf_wordBytes, base_ofCode_code]

/-- An r/m operand is read back from its encoding. -/
theorem decodeRm_encRm {ρ : Type} (code : ρ → Bits3) (ofCode : Bits3 → ρ) (hc : ∀ r, ofCode (code r) = r)
    (reg : Bits3) (e : Rm ρ) (h : e.wf = true) :
    ∃ mode rm tail, encRm code reg e = modrmByte mode reg rm :: tail ∧
      ∀ rest, decodeRm ofCode mode rm (tail ++ rest) = some (e, rest) := by
  cases e with
  | reg r =>
    refine ⟨3, code r, [], rfl, ?_⟩
    intro rest
    simp [decodeRm, hc]
  | mem m =>
    obtain ⟨mode, rm, tail, h1, h2, h3⟩ := decodeMem_encMem reg m h
    refine ⟨mode, rm, tail, h1, ?_⟩
    intro rest
    rw [decodeRm, if_neg h2, h3]
    rfl

theorem decodeRm_encRm8 (reg : Bits3) (e : Rm Reg8) (h : e.wf = true) :
    ∃ mode rm tail, encRm8 reg e = modrmByte mode reg rm :: tail ∧
      ∀ rest, decodeRm Reg8.ofCode mode rm (tail ++ rest) = some (e, rest) :=
  decodeRm_encRm _ _ reg8_ofCode_code reg e h

theorem decodeRm_encRm16 (reg : Bits3) (e : Rm Reg16) (h : e.wf = true) :
    ∃ mode rm tail, encRm16 reg e = modrmByte mode reg rm :: tail ∧
      ∀ rest, decodeRm Reg16.ofCode mode rm (tail ++ rest) = some (e, rest) :=
  decodeRm_encRm _ _ reg16_ofCode_code reg e h

/-! ### More bytes -/

theorem decodeMem_append {mode : Bits2} {rm : Bits3} {bytes rest : List Byte} {m : MemOp}
    (h : decodeMem mode rm bytes = some (m, rest)) (more : List Byte) :
    decodeMem mode rm (bytes ++ more) = some (m, rest ++ more) := by
  unfold decodeMem at h ⊢
  split at h
  · split at h
    · split at h
      · cases h; simp_all
      · cases h
    · cases h; simp_all
  · split at h
    · split at h
      · cases h; simp_all
      · cases h
    · split at h
      · cases h; simp_all
      · cases h

theorem decodeRm_append {ρ : Type} {ofCode : Bits3 → ρ} {mode : Bits2} {rm : Bits3}
    {bytes rest : List Byte} {e : Rm ρ} (h : decodeRm ofCode mode rm bytes = some (e, rest))
    (more : List Byte) : decodeRm ofCode mode rm (bytes ++ more) = some (e, rest ++ more) := by
  unfold decodeRm at h ⊢
  split at h
  · cases h
    simp_all
  · rename_i hm
    cases hd : decodeMem mode rm bytes with
    | none => simp [hd] at h
    | some x =>
      simp only [hd, Option.map_some, Option.some.injEq, Prod.mk.injEq] at h
      obtain ⟨h1, h2⟩ := h
      subst h1 h2
      rw [if_neg hm, decodeMem_append hd more]
      rfl

theorem decodeIb_append {f : Byte → Instr} {bytes rest : List Byte} {i : Instr}
    (h : decodeIb f bytes = .done i rest) (more : List Byte) :
    decodeIb f (bytes ++ more) = .done i (rest ++ more) := by
  cases bytes with
  | nil => cases h
  | cons b bs => cases h; rfl

theorem decodeIw_append {f : Word → Instr} {bytes rest : List Byte} {i : Instr}
    (h : decodeIw f bytes = .done i rest) (more : List Byte) :
    decodeIw f (bytes ++ more) = .done i (rest ++ more) := by
  rcases bytes with _ | ⟨b, _ | ⟨c, bs⟩⟩ <;> cases h
  rfl

theorem decodeAp_append {f : Word → Word → Instr} {bytes rest : List Byte} {i : Instr}
    (h : decodeAp f bytes = .done i rest) (more : List Byte) :
    decodeAp f (bytes ++ more) = .done i (rest ++ more) := by
  rcases bytes with _ | ⟨a, _ | ⟨b, _ | ⟨c, _ | ⟨d, bs⟩⟩⟩⟩ <;> cases h
  rfl

theorem decodeTail_append {mode : Bits2} {rm : Bits3} {t : Tail} {bytes rest : List Byte} {i : Instr}
    (h : decodeTail mode rm t bytes = .done i rest) (more : List Byte) :
    decodeTail mode rm t (bytes ++ more) = .done i (rest ++ more) := by
  cases t with
  | stop j => cases h; rfl
  | e8 f =>
    simp only [decodeTail] at h ⊢
    split at h
    · rename_i hd; cases h; simp [decodeRm_append hd more]
    · cases h
  | e16 f =>
    simp only [decodeTail] at h ⊢
    split at h
    · rename_i hd; cases h; simp [decodeRm_append hd more]
    · cases h
  | mem f =>
    simp only [decodeTail] at h ⊢
    split at h
    · rename_i hd; cases h; simp [decodeMem_append hd more]
    · cases h
  | e8ib f =>
    simp only [decodeTail] at h ⊢
    split at h
    · rename_i hd; simp [decodeRm_append hd more, decodeIb_append h more]
    · cases h
  | e16ib f =>
    simp only [decodeTail] at h ⊢
    split at h
    · rename_i hd; simp [decodeRm_append hd more, decodeIb_append h more]
    · cases h
  | e16iw f =>
    simp only [decodeTail] at h ⊢
    split at h
    · rename_i hd; simp [decodeRm_append hd more, decodeIw_append h more]
    · cases h

/-- Once a unit is whole, further bytes do not change it. -/
theorem decode_append {bytes rest : List Byte} {i : Instr} (h : decode bytes = .done i rest)
    (more : List Byte) : decode (bytes ++ more) = .done i (rest ++ more) := by
  cases bytes with
  | nil => cases h
  | cons op bs =>
    simp only [decode, List.cons_append] at h ⊢
    cases he : opEntry op with
    | op j => rw [he] at h; cases h; rfl
    | ib f => rw [he] at h; exact decodeIb_append h more
    | iw f => rw [he] at h; exact decodeIw_append h more
    | ap f => rw [he] at h; exact decodeAp_append h more
    | modrm f =>
      rw [he] at h
      cases bs with
      | nil => cases h
      | cons m ms => exact decodeTail_append h more

end Sys2Proof
end

