-- ==== Sys2Proof/Laws/Memory.lean ====
section
/-! SUPPORT. The laws of byte storage: a read after a write, and the canonical form is kept. -/

namespace Sys2Proof.Machine

/-- A write leaves every other address alone. -/
theorem memRead_other {m : Mem} {a c : Nat} {b : Byte} (hne : c ≠ a) :
    memRead (memWrite m a b) c = memRead m c := by
  induction m with
  | nil => by_cases hb : b = 0#8 <;> simp [memWrite, memRead, hb, Ne.symm hne]
  | cons x rest ih =>
    obtain ⟨k, v⟩ := x
    simp only [memWrite]
    split
    · split <;> simp [memRead, Ne.symm hne]
    · split
      · rename_i h2
        subst h2
        split <;> simp [memRead, Ne.symm hne]
      · simp only [memRead]
        split <;> [rfl; exact ih]

/-- An address below every listed one reads as 0. -/
theorem memRead_below {m : Mem} {a lo : Nat} (h : memSorted (some lo) m = true) (ha : a ≤ lo) :
    memRead m a = 0 := by
  induction m generalizing lo with
  | nil => rfl
  | cons x rest ih =>
    obtain ⟨k, v⟩ := x
    simp only [memSorted, Bool.and_eq_true, decide_eq_true_eq] at h
    have hk : k ≠ a := by omega
    simp only [memRead, hk, if_false]
    exact ih h.2 (by omega)

/-- A write is read back. -/
theorem memRead_memWrite_self {m : Mem} {a : Nat} {b : Byte} (lo : Option Nat)
    (h : memSorted lo m = true) : memRead (memWrite m a b) a = b := by
  induction m generalizing lo with
  | nil => by_cases hb : b = 0#8 <;> simp [memWrite, memRead, hb]
  | cons x rest ih =>
    obtain ⟨k, v⟩ := x
    simp only [memSorted, Bool.and_eq_true] at h
    have ih' := ih (some k) h.2
    simp only [memWrite]
    split
    · split
      · rename_i h1 h2
        have hk : k ≠ a := by omega
        simp only [memRead, hk, if_false, h2]
        exact memRead_below h.2 (by omega)
      · simp [memRead]
    · split
      · rename_i h2
        subst h2
        split
        · rename_i hb
          rw [hb]
          exact memRead_below h.2 (le_refl _)
        · simp [memRead]
      · rename_i h1 h2
        simp only [memRead, show k ≠ a from fun e => h2 e.symm, if_false]
        exact ih'

/-- A write keeps the addresses rising and lists no 0, above any bound below the address written. -/
theorem memSorted_memWrite {m : Mem} {a : Nat} {b : Byte} (lo : Option Nat) (h : memSorted lo m = true)
    (ha : ∀ l, lo = some l → l < a) : memSorted lo (memWrite m a b) = true := by
  induction m generalizing lo with
  | nil =>
    by_cases hb : b = 0#8
    · simp [memWrite, hb, memSorted]
    · cases lo with
      | none => simp [memWrite, hb, memSorted]
      | some l => simp [memWrite, hb, memSorted, ha l rfl]
  | cons x rest ih =>
    obtain ⟨k, v⟩ := x
    have h' := h
    simp only [memSorted, Bool.and_eq_true] at h
    simp only [memWrite]
    split
    · rename_i h1
      split
      · exact h'
      · rename_i hb
        have hb' : ¬ b = 0#8 := hb
        have hv : ¬ v = 0#8 := by simpa using h.1.2
        cases lo with
        | none => simp [memSorted, hb', h1, hv, h.2]
        | some l => simp [memSorted, hb', h1, hv, h.2, ha l rfl]
    · split
      · rename_i h2
        subst h2
        split
        · cases rest with
          | nil => simp [memSorted]
          | cons y ys =>
            obtain ⟨k', v'⟩ := y
            have h3 := h.2
            simp only [memSorted, Bool.and_eq_true, decide_eq_true_eq] at h3 ⊢
            refine ⟨⟨?_, h3.1.2⟩, h3.2⟩
            cases lo with
            | none => rfl
            | some l => have := ha l rfl; simp; omega
        · rename_i hb
          simp only [memSorted, Bool.and_eq_true]
          exact ⟨⟨h.1.1, by simpa using hb⟩, h.2⟩
      · rename_i h1 h2
        simp only [memSorted, Bool.and_eq_true]
        refine ⟨h.1, ih (some k) h.2 ?_⟩
        intro l hl
        have hl' : k = l := by simpa using hl
        omega

/-- Storing a byte keeps the canonical form. -/
theorem memWf_memWrite {m : Mem} {a : Nat} {b : Byte} (h : memWf m = true) :
    memWf (memWrite m a b) = true :=
  memSorted_memWrite none h (by simp)

/-- A byte stored in canonical storage is read back. -/
theorem memRead_self {m : Mem} {a : Nat} {b : Byte} (h : memWf m = true) :
    memRead (memWrite m a b) a = b := memRead_memWrite_self none h

end Sys2Proof.Machine
end

