-- ==== Sys2Proof/Laws/Effects.lean ====
section
/-! SUPPORT. One specification per operation of the Execution Engine, for a CPU that is ready: each operation
completes, ready again, with the stated effect on the view. Proofs about instructions cite these and
unfold no operation. -/

namespace Sys2Proof.Machine

/-- `m` completes from `s`, ready again, with a result and a state that satisfy `P`. -/
def Runs {α : Type} (m : EU α) (s : State) (P : α → State → Prop) : Prop :=
  ∃ a t, m s = .ok a t ∧ Ready t ∧ P a t

theorem Runs.imp {α : Type} {m : EU α} {s : State} {P Q : α → State → Prop} (h : Runs m s P)
    (hq : ∀ a t, P a t → Q a t) : Runs m s Q := by
  obtain ⟨a, t, e, r, p⟩ := h
  exact ⟨a, t, e, r, hq a t p⟩

theorem Runs.bind {α β : Type} {m : EU α} {f : α → EU β} {s : State} {P : α → State → Prop}
    {Q : β → State → Prop} (h : Runs m s P) (hf : ∀ a t, Ready t → P a t → Runs (f a) t Q) :
    Runs (m >>= f) s Q := by
  obtain ⟨a, t, e, r, p⟩ := h
  obtain ⟨b, u, e', r', q⟩ := hf a t r p
  refine ⟨b, u, ?_, r', q⟩
  show EStateM.bind m f s = _
  simp only [EStateM.bind, e]
  exact e'

theorem Runs.pure {α : Type} {a : α} {s : State} {P : α → State → Prop} (hr : Ready s) (hp : P a s) :
    Runs (Pure.pure a : EU α) s P := ⟨a, s, rfl, hr, hp⟩

theorem Runs.readS {α : Type} {f : State → α} {s : State} {P : α → State → Prop} (hr : Ready s)
    (hp : P (f s) s) : Runs (readS f) s P := ⟨f s, s, rfl, hr, hp⟩

/-- A bind after a read of the state. -/
theorem Runs.readS_bind {α β : Type} {f : State → α} {g : α → EU β} {s : State} {Q : β → State → Prop}
    (h : Runs (g (f s)) s Q) : Runs (Machine.readS f >>= g) s Q := h

theorem Runs.modifyCpu {f : Cpu → Cpu} {s : State} {P : Unit → State → Prop} (hr : Ready s)
    (hp : P () { s with cpu := f s.cpu }) : Runs (modifyCpu f) s P := ⟨(), _, rfl, hr, hp⟩

/-- A bind after a change of the register file. -/
theorem Runs.modifyCpu_bind {β : Type} {f : Cpu → Cpu} {g : Unit → EU β} {s : State}
    {Q : β → State → Prop} (h : Runs (g ()) { s with cpu := f s.cpu } Q) :
    Runs (Machine.modifyCpu f >>= g) s Q := h

theorem Runs.modifyFlags {f : Flags → Flags} {s : State} {P : Unit → State → Prop} (hr : Ready s)
    (hp : P () { s with cpu := { s.cpu with flags := f s.cpu.flags } }) : Runs (modifyFlags f) s P :=
  ⟨(), _, rfl, hr, hp⟩

/-- A bind after a change of the flags. -/
theorem Runs.modifyFlags_bind {β : Type} {f : Flags → Flags} {g : Unit → EU β} {s : State}
    {Q : β → State → Prop}
    (h : Runs (g ()) { s with cpu := { s.cpu with flags := f s.cpu.flags } } Q) :
    Runs (Machine.modifyFlags f >>= g) s Q := h

theorem ready_modifyEu {f : Eu → Eu} {s : State} (hr : Ready s) (hf : (f s.eu).faulted = s.eu.faulted) :
    Ready { s with eu := f s.eu } := by
  refine ⟨?_, hr.2⟩
  have := hr.1
  simp only [frozen] at this ⊢
  rw [hf]
  exact this

theorem Runs.modifyEu {f : Eu → Eu} {s : State} {P : Unit → State → Prop} (hr : Ready s)
    (hf : (f s.eu).faulted = s.eu.faulted) (hp : P () { s with eu := f s.eu }) : Runs (modifyEu f) s P :=
  ⟨(), _, rfl, ready_modifyEu hr hf, hp⟩

/-- A draw gives some bit and changes nothing of the view. -/
theorem Runs.drawBit {s : State} (hr : Ready s) : Runs drawBit s fun _ t => view t = view s :=
  ⟨_, _, rfl, hr, rfl⟩

theorem Runs.drawIf {b : Bool} {s : State} (hr : Ready s) : Runs (drawIf b) s fun _ t => view t = view s := by
  cases b
  · exact Runs.pure hr rfl
  · exact Runs.drawBit hr

/-! ### Memory and ports -/

theorem Runs.busAccess {r : Request} {s : State} (hr : Ready s) :
    Runs (busAccess r) s fun b t => ∃ s1, view s1 = view s ∧ b = (dataPhase (txnOf r) s1).1 ∧
      view t = view (dataPhase (txnOf r) s1).2 := by
  obtain ⟨t, s1, e1, e2, e3, e4, -⟩ := busAccess_ready r hr
  exact ⟨_, t, e1, e3, s1, e2, rfl, e4⟩

/-- A byte read gives the byte held there and changes nothing of the view. -/
theorem Runs.memRead8 {seg off : Word} {s : State} (hr : Ready s) :
    Runs (memRead8 seg off) s fun b t => (view s).Holds8 seg off b ∧ view t = view s := by
  refine (Runs.busAccess (r := ⟨.readMemory, .mem seg off, 0⟩) hr).imp ?_
  rintro b t ⟨s1, h1, h2, h3⟩
  have hd : dataPhase (txnOf ⟨.readMemory, .mem seg off, 0⟩) s1 =
      sampleMemory .readMemory (phys seg off) s1 := rfl
  rw [hd] at h2 h3
  rw [h2, h3, sampleMemory_view, ← h1]
  exact ⟨sampleMemory_holds _ _ _ _, rfl⟩

/-- A byte write stores on the view. -/
theorem Runs.memWrite8 {seg off : Word} {b : Byte} {s : State} (hr : Ready s) :
    Runs (memWrite8 seg off b) s fun _ t => view t = (view s).store8 seg off b := by
  unfold Machine.memWrite8
  refine Runs.bind (Runs.busAccess (r := ⟨.writeMemory, .mem seg off, b⟩) hr) ?_
  rintro _ t hr' ⟨s1, h1, -, h3⟩
  refine Runs.pure hr' ?_
  rw [h3, ← h1]
  exact depositMemory_view _ _ _ _ _

/-- A byte, then the next, make the word that is held there. -/
theorem loByte_joinBytes (hi lo : Byte) : loByte (joinBytes hi lo) = lo := by
  unfold loByte joinBytes
  ext i hi'
  simp

theorem hiByte_joinBytes (hi lo : Byte) : hiByte (joinBytes hi lo) = hi := by
  unfold hiByte joinBytes
  ext i hi'
  have h : 8 + i < 16 := by omega
  simp [hi', h]

theorem joinBytes_hi_lo (v : Word) : joinBytes (hiByte v) (loByte v) = v := by
  unfold hiByte loByte joinBytes
  ext i hi'
  by_cases h : i < 8
  · simp [h, hi', BitVec.getLsbD_eq_getElem]
  · have h1 : i - 8 < 8 := by omega
    have h2 : 8 + (i - 8) = i := by omega
    simp [h, h1, h2, hi', BitVec.getLsbD_eq_getElem]

/-- A word read gives the word held there and changes nothing of the view. -/
theorem Runs.memRead16 {seg off : Word} {s : State} (hr : Ready s) :
    Runs (memRead16 seg off) s fun w t => (view s).Holds16 seg off w ∧ view t = view s := by
  refine Runs.bind (Runs.memRead8 hr) ?_
  rintro lo t1 r1 ⟨h1, e1⟩
  refine Runs.bind (Runs.memRead8 r1) ?_
  rintro hi t2 r2 ⟨h2, e2⟩
  refine Runs.pure r2 ⟨⟨?_, ?_⟩, by rw [e2, e1]⟩
  · rw [loByte_joinBytes]; exact h1
  · rw [hiByte_joinBytes, ← e1]; exact h2

/-- A word write stores on the view. -/
theorem Runs.memWrite16 {seg off w : Word} {s : State} (hr : Ready s) :
    Runs (memWrite16 seg off w) s fun _ t => view t = (view s).store16 seg off w := by
  refine Runs.bind (Runs.memWrite8 hr) ?_
  rintro _ t1 r1 e1
  refine (Runs.memWrite8 r1).imp ?_
  rintro _ t2 e2
  rw [e2, e1]
  rfl

theorem Runs.portRead8 {p : Word} {s : State} (hr : Ready s) :
    Runs (portRead8 p) s fun b t => (view s).PortHolds p b ∧ view t = (view s).portRead p := by
  refine (Runs.busAccess (r := ⟨.readPort, .port p, 0⟩) hr).imp ?_
  rintro b t ⟨s1, h1, h2, h3⟩
  have hd : dataPhase (txnOf ⟨.readPort, .port p, 0⟩) s1 = samplePort p s1 := rfl
  rw [hd] at h2 h3
  rw [h2, h3, samplePort_view, ← h1]
  exact ⟨samplePort_holds _ _, rfl⟩

theorem Runs.portWrite8 {p : Word} {b : Byte} {s : State} (hr : Ready s) :
    Runs (portWrite8 p b) s fun _ t => view t = (view s).portWrite p b := by
  unfold Machine.portWrite8
  refine Runs.bind (Runs.busAccess (r := ⟨.writePort, .port p, b⟩) hr) ?_
  rintro _ t hr' ⟨s1, h1, -, h3⟩
  refine Runs.pure hr' ?_
  rw [h3, ← h1]
  exact depositPort_view _ _ _

theorem Runs.portRead16 {p : Word} {s : State} (hr : Ready s) :
    Runs (portRead16 p) s fun w t => (view s).PortHolds p (loByte w) ∧
      ((view s).portRead p).PortHolds (p + 1) (hiByte w) ∧
      view t = ((view s).portRead p).portRead (p + 1) := by
  refine Runs.bind (Runs.portRead8 hr) ?_
  rintro lo t1 r1 ⟨h1, e1⟩
  refine Runs.bind (Runs.portRead8 r1) ?_
  rintro hi t2 r2 ⟨h2, e2⟩
  refine Runs.pure r2 ⟨?_, ?_, by rw [e2, e1]⟩
  · rw [loByte_joinBytes]; exact h1
  · rw [hiByte_joinBytes, ← e1]; exact h2

theorem Runs.portWrite16 {p w : Word} {s : State} (hr : Ready s) :
    Runs (portWrite16 p w) s fun _ t =>
      view t = ((view s).portWrite p (loByte w)).portWrite (p + 1) (hiByte w) := by
  refine Runs.bind (Runs.portWrite8 hr) ?_
  rintro _ t1 r1 e1
  refine (Runs.portWrite8 r1).imp ?_
  rintro _ t2 e2
  rw [e2, e1]

/-! ### Stack, jumps and interrupt entry -/

theorem Runs.push {w : Word} {s : State} (hr : Ready s) :
    Runs (push w) s fun _ t => view t = (view s).push w := by
  refine Runs.modifyCpu_bind (Runs.readS_bind ?_)
  exact Runs.memWrite16 (s := { s with cpu := { s.cpu with sp := s.cpu.sp - 2 } }) hr

theorem Runs.pop {s : State} (hr : Ready s) :
    Runs pop s fun w t => (view s).Top w ∧ view t = (view s).addSp 2 := by
  refine Runs.readS_bind (Runs.bind (Runs.memRead16 hr) ?_)
  rintro w t r ⟨h, e⟩
  refine Runs.modifyCpu_bind (Runs.pure r ⟨h, ?_⟩)
  rw [← e]
  rfl

theorem Runs.readFarPointer {seg off : Word} {s : State} (hr : Ready s) :
    Runs (readFarPointer seg off) s fun x t => (view s).Holds16 seg off x.1 ∧
      (view s).Holds16 seg (off + 2) x.2 ∧ view t = view s := by
  refine Runs.bind (Runs.memRead16 hr) ?_
  rintro o t1 r1 ⟨h1, e1⟩
  refine Runs.bind (Runs.memRead16 r1) ?_
  rintro g t2 r2 ⟨h2, e2⟩
  exact Runs.pure r2 ⟨h1, e1 ▸ h2, by rw [e2, e1]⟩

theorem busQuiet_staleBus {b : Bus} (h : busQuiet b = true) : busQuiet (staleBus b) = true := by
  cases b with
  | passive => rfl
  | held => rfl
  | busy t =>
    simp only [staleBus]
    split <;> exact h

/-- A flush empties the queue and marks the fetch in flight (R150, R151). -/
theorem flushed_flushQueue (b : Biu) : Flushed (flushQueue b) := by
  refine ⟨rfl, fun t h ho hp => ?_⟩
  cases hb : b.bus with
  | passive => simp [flushQueue, staleBus, hb] at h
  | held => simp [flushQueue, staleBus, hb] at h
  | busy u =>
    simp only [flushQueue, staleBus, hb] at h
    split at h <;> cases h
    · rfl
    · rename_i hc
      exact absurd ⟨ho, hp⟩ hc

/-- A jump changes IP and flushes the queue. -/
theorem Runs.jump {off : Word} {s : State} (hr : Ready s) :
    Runs (jump off) s fun _ t => view t = (view s).setIp off ∧ Flushed t.biu :=
  ⟨(), _, rfl, ⟨hr.1, ⟨hr.2.1.1, busQuiet_staleBus hr.2.1.2⟩, hr.2.2⟩, rfl, flushed_flushQueue _⟩

/-- A far jump changes CS and IP and flushes the queue. -/
theorem Runs.jumpFar {seg off : Word} {s : State} (hr : Ready s) :
    Runs (jumpFar seg off) s fun _ t => view t = (view s).jumpFar seg off ∧ Flushed t.biu :=
  ⟨(), _, rfl, ⟨hr.1, ⟨hr.2.1.1, busQuiet_staleBus hr.2.1.2⟩, hr.2.2⟩, rfl, flushed_flushQueue _⟩

/-- Interrupt entry: the frame is pushed, then the vector is read and jumped to (R820). -/
theorem Runs.interruptEntry {n : Byte} {ret : Word} {s : State} (hr : Ready s) :
    Runs (interruptEntry n ret) s fun _ t => ∃ sel off, ((view s).enterFrame ret).Vector n sel off ∧
      view t = ((view s).enterFrame ret).jumpFar sel off ∧ Flushed t.biu := by
  refine Runs.bind (Runs.modifyEu (P := fun _ t =>
    view t = { view s with eu := { (view s).eu with selfEntered := true } }) hr rfl rfl) ?_
  rintro _ t0 r0 e0
  refine Runs.readS_bind (Runs.bind (Runs.push r0) ?_)
  rintro _ t1 r1 e1
  refine Runs.modifyFlags_bind (Runs.readS_bind ?_)
  let t1' : State :=
    { t1 with cpu := { t1.cpu with flags := { t1.cpu.flags with tf := false, intf := false } } }
  have r1' : Ready t1' := r1
  have hcs : ∀ (v : View) (w : Word), (v.push w).cpu.cs = v.cpu.cs := fun v w => by simp
  have hframe : ((view t1').push t1'.cpu.cs).push ret = (view s).enterFrame ret := by
    have h1 : view t1' = (view t1).setFlags fun f => { f with tf := false, intf := false } := rfl
    have h2 : t1'.cpu.cs = s.cpu.cs := by
      show (view t1).cpu.cs = _
      rw [e1, hcs, e0]
      rfl
    have h3 : t0.cpu = s.cpu := by
      have := congrArg View.cpu e0
      exact this
    rw [h1, h2, e1, e0, h3]
    rfl
  refine Runs.bind (Runs.push r1') ?_
  rintro _ t2 r2 e2
  refine Runs.bind (Runs.push r2) ?_
  rintro _ t3 r3 e3
  have ev : view t3 = (view s).enterFrame ret := by rw [e3, e2, hframe]
  refine Runs.bind (Runs.memRead16 r3) ?_
  rintro off t4 r4 ⟨h4, e4⟩
  refine Runs.bind (Runs.memRead16 r4) ?_
  rintro sel t5 r5 ⟨h5, e5⟩
  refine (Runs.jumpFar r5).imp ?_
  rintro _ t6 ⟨e6, hq⟩
  rw [e4, ev] at h5
  rw [ev] at h4
  exact ⟨sel, off, ⟨h4, h5⟩, by rw [e6, e5, e4, ev], hq⟩

theorem Runs.enterAtIp {n : Byte} {s : State} (hr : Ready s) :
    Runs (enterAtIp n) s fun _ t => ∃ sel off, ((view s).enterFrame s.cpu.ip).Vector n sel off ∧
      view t = ((view s).enterFrame s.cpu.ip).jumpFar sel off ∧ Flushed t.biu :=
  Runs.readS_bind (Runs.interruptEntry hr)

/-! ### Operands -/

theorem Runs.resolve {ρ : Type} {e : Rm ρ} {s : State} {P : Place ρ → State → Prop} (hr : Ready s)
    (h : P (place s e) s) : Runs (resolve e) s P := Runs.readS hr h

theorem Runs.readPlace8 {p : Place Reg8} {s : State} (hr : Ready s) :
    Runs (readPlace8 p) s fun b t => (view s).Value8 p b ∧ view t = view s := by
  cases p with
  | reg r => exact Runs.readS hr ⟨rfl, rfl⟩
  | mem seg off => exact Runs.memRead8 hr

theorem Runs.readPlace16 {p : Place Reg16} {s : State} (hr : Ready s) :
    Runs (readPlace16 p) s fun w t => (view s).Value16 p w ∧ view t = view s := by
  cases p with
  | reg r => exact Runs.readS hr ⟨rfl, rfl⟩
  | mem seg off => exact Runs.memRead16 hr

theorem Runs.writePlace8 {p : Place Reg8} {b : Byte} {s : State} (hr : Ready s) :
    Runs (writePlace8 p b) s fun _ t => view t = (view s).write8 p b := by
  cases p with
  | reg r => exact Runs.modifyCpu hr rfl
  | mem seg off => exact Runs.memWrite8 hr

theorem Runs.writePlace16 {p : Place Reg16} {w : Word} {s : State} (hr : Ready s) :
    Runs (writePlace16 p w) s fun _ t => view t = (view s).write16 p w := by
  cases p with
  | reg r => exact Runs.modifyCpu hr rfl
  | mem seg off => exact Runs.memWrite16 hr

theorem Runs.setShadow {s : State} (hr : Ready s) :
    Runs setShadow s fun _ t => view t = { view s with eu := { (view s).eu with shadow := true } } :=
  Runs.modifyEu hr rfl rfl

/-- The ALU writes the flags it computes, with some value for an undefined AF. -/
theorem Runs.aluCompute {w : Nat} {op : AluOp} {a b : BitVec w} {s : State} (hr : Ready s) :
    Runs (aluCompute op a b) s fun r t => ∃ af, r = (aluResult op a b af s.cpu.flags).result ∧
      view t = (view s).setFlags fun _ => (aluResult op a b af s.cpu.flags).flags := by
  refine Runs.bind (Runs.drawIf hr) ?_
  rintro af t r e
  have hc : t.cpu = s.cpu := view_cpu_eq e
  refine Runs.readS_bind (Runs.modifyFlags_bind (Runs.pure r ⟨af, by rw [hc], ?_⟩))
  rw [← e, ← hc]
  rfl

/-! ### Whole instructions -/

/-- A whole instruction completes when its body runs; it ends at an instruction boundary, unlocked. -/
theorem complete_runs {body : EU Unit} {s : State} {P : State → Prop} (hr : Ready s)
    (hb : ∀ s', Ready s' → view s' = view s → s'.biu.queue = s.biu.queue → Runs body s' fun _ t => P t) :
    ∃ t0 t, complete body s = .next t ∧ P t0 ∧ Ready t ∧ view t = (view t0).done ∧
      t.biu = { t0.biu with lockOut := false } := by
  have key : ∀ s', Ready s' → view s' = view s → s'.biu.queue = s.biu.queue →
      ∃ t0 t, runEU (do body; endInstr) s' = .next t ∧ P t0 ∧ Ready t ∧ view t = (view t0).done ∧
        t.biu = { t0.biu with lockOut := false } := by
    intro s' hr' hv hq
    obtain ⟨a, t0, e, r0, p⟩ := hb s' hr' hv hq
    refine ⟨t0, { t0 with
      eu := clearPrefixes t0.cpu.ip t0.eu, progress := none, biu := { t0.biu with lockOut := false } },
      ?_, p, ⟨r0.1, r0.2⟩, rfl, rfl⟩
    have hm : (do body; endInstr : EU Unit) s' = endInstr t0 := by
      show EStateM.bind body _ s' = _
      simp only [EStateM.bind, e]
    unfold runEU
    rw [hm]
    rfl
  unfold complete
  cases hl : s.eu.lock with
  | false => exact key s hr rfl rfl
  | true => exact key { s with biu := { s.biu with lockOut := true } } hr rfl rfl

theorem bytesKept_of_view {s t t0 : State} {addrs : List Nat} (h : view t = (view t0).done)
    (hk : ∀ a, a ∉ addrs → memRead t0.mem a = memRead s.mem a) : BytesKept s t addrs := by
  intro a ha
  have : t.mem = t0.mem := congrArg View.mem h
  rw [this]
  exact hk a ha

/-- From a body to the completion of an instruction: `Q` is what the body leaves of the view. -/
theorem completes_of {i : Instr} {body : EU Unit} {s : State} {addrs : List Nat} {Q : View → Prop}
    (hi : exec i s = complete body s) (hr : Ready s)
    (hb : ∀ s', Ready s' → view s' = view s → Runs body s' fun _ t => Q (view t))
    (hk : ∀ v, Q v → ∀ a, a ∉ addrs → memRead v.mem a = memRead s.mem a) :
    ∃ v, Q v ∧ Completes i s v.done addrs := by
  obtain ⟨t0, t, e, q, r, ev, hl⟩ := complete_runs hr fun s' h1 h2 _ => hb s' h1 h2
  exact ⟨view t0, q, t, hi.trans e, r, by rw [hl], ev, bytesKept_of_view ev (hk _ q)⟩

/-- From a body that jumps to the completion of an instruction. -/
theorem jumps_of {i : Instr} {body : EU Unit} {s : State} {addrs : List Nat} {Q : View → Prop}
    (hi : exec i s = complete body s) (hr : Ready s)
    (hb : ∀ s', Ready s' → view s' = view s → Runs body s' fun _ t => Q (view t) ∧ Flushed t.biu)
    (hk : ∀ v, Q v → ∀ a, a ∉ addrs → memRead v.mem a = memRead s.mem a) :
    ∃ v, Q v ∧ Jumps i s v.done addrs := by
  obtain ⟨t0, t, e, ⟨q, hq⟩, r, ev, hl⟩ := complete_runs hr fun s' h1 h2 _ => hb s' h1 h2
  exact ⟨view t0, q, t, hi.trans e, r, by rw [hl], ev, bytesKept_of_view ev (hk _ q), by rw [hl]; exact hq⟩

/-- An instruction that changes nothing but its prefixes keeps the queue. -/
theorem completes_pure {i : Instr} {s : State} (hi : exec i s = complete (pure ()) s) (hr : Ready s) :
    Completes i s (view s).done [] ∧ ∀ t, exec i s = .next t → t.biu.queue = s.biu.queue := by
  obtain ⟨t0, t, e, ⟨q, hq⟩, r, ev, hl⟩ := complete_runs (body := pure ())
    (P := fun t => view t = view s ∧ t.biu.queue = s.biu.queue) hr
    fun s' h1 h2 h3 => Runs.pure h1 ⟨h2, h3⟩
  refine ⟨⟨t, hi.trans e, r, by rw [hl], by rw [ev, q], bytesKept_of_view ev ?_⟩, ?_⟩
  · intro a _
    have : t0.mem = s.mem := congrArg View.mem q
    rw [this]
  · intro t' h
    rw [hi, e] at h
    cases h
    rw [hl]
    exact hq

/-- The place of an operand depends on the view alone. -/
theorem place_congr {ρ : Type} {s t : State} (h : view t = view s) (e : Rm ρ) : place t e = place s e := by
  cases e <;> simp [place, memPlace, segValue, view_cpu_eq h, view_eu_eq h]

/-- An admitted undocumented encoding has its silicon meaning. -/
theorem ifAdmitted_eq {u : UndocId} {meaning : State → Result} {s : State} (h : admits s.params u = true) :
    ifAdmitted u meaning s = meaning s := by
  simp [ifAdmitted, h]

/-- One that is not admitted raises DecodeFault. -/
theorem ifAdmitted_fault {u : UndocId} {meaning : State → Result} {s : State}
    (h : admits s.params u = false) : ifAdmitted u meaning s = decodeFault s := by
  simp [ifAdmitted, h]

/-! ### Bytes kept -/

theorem store8_kept {v : View} {seg off : Word} {b : Byte} {a : Nat} (h : a ≠ phys seg off) :
    memRead (v.store8 seg off b).mem a = memRead v.mem a := by
  unfold View.store8
  split
  · exact memRead_other h
  · rfl
  · rfl
  · rfl

theorem store16_kept {v : View} {seg off w : Word} {a : Nat} (h1 : a ≠ phys seg off)
    (h2 : a ≠ phys seg (off + 1)) : memRead (v.store16 seg off w).mem a = memRead v.mem a := by
  unfold View.store16
  rw [store8_kept h2, store8_kept h1]

theorem write8_kept {v : View} {p : Place Reg8} {b : Byte} {a : Nat} (h : a ∉ storedAt8 p) :
    memRead (v.write8 p b).mem a = memRead v.mem a := by
  cases p with
  | reg r => rfl
  | mem seg off => exact store8_kept (by simpa [storedAt8] using h)

theorem write16_kept {v : View} {p : Place Reg16} {w : Word} {a : Nat} (h : a ∉ storedAt16 p) :
    memRead (v.write16 p w).mem a = memRead v.mem a := by
  cases p with
  | reg r => rfl
  | mem seg off =>
    simp only [storedAt16, List.mem_cons, List.not_mem_nil, or_false, not_or] at h
    exact store16_kept h.1 h.2

theorem push_kept {v : View} {w : Word} {a : Nat} (h : a ∉ pushedAt v.cpu.ss v.cpu.sp) :
    memRead (v.push w).mem a = memRead v.mem a := by
  simp only [pushedAt, List.mem_cons, List.not_mem_nil, or_false, not_or] at h
  unfold View.push
  rw [store16_kept h.1 (by
    have : v.cpu.sp - 2 + 1 = v.cpu.sp - 1 := by bv_omega
    rw [this]
    exact h.2)]
  rfl

/-- An interrupt entry keeps every byte outside its frame. -/
theorem enterFrame_kept {v : View} {ret : Word} {a : Nat}
    (h : a ∉ pushedAt v.cpu.ss v.cpu.sp ++ pushedAt v.cpu.ss (v.cpu.sp - 2) ++
      pushedAt v.cpu.ss (v.cpu.sp - 4)) :
    memRead (v.enterFrame ret).mem a = memRead v.mem a := by
  simp only [List.mem_append, not_or] at h
  have h4 : v.cpu.sp - 2#16 - 2#16 = v.cpu.sp - 4#16 := by bv_omega
  unfold View.enterFrame
  rw [push_kept, push_kept]
  · show memRead (View.push _ _).mem a = _
    rw [push_kept]
    exact h.1.1
  · simpa using h.1.2
  · simpa [h4] using h.2

/-- A jump keeps memory. -/
theorem jumpFar_kept (v : View) (seg off : Word) (a : Nat) :
    memRead (v.jumpFar seg off).mem a = memRead v.mem a := rfl

end Sys2Proof.Machine
end

