-- ==== Sys2Proof/Laws/Invariant.lean ====
section
/-! SUPPORT. What the Execution Engine's operations keep, whatever the inputs are: storage in canonical
form, a well-formed Bus Cycle Engine, an idle Execution Engine, and no waiting loop that runs out. -/

namespace Sys2Proof.Machine

/-- The part of the invariant that every tick keeps, even of a frozen CPU. -/
def Good (s : State) : Prop := memWf s.mem = true ∧ memWf s.ports = true ∧ BiuWf s.biu

/-! ### Ticks -/

theorem good_of_biu {s t : State} (h : Good s) (hm : memWf t.mem = true) (hp : memWf t.ports = true)
    (hb : t.biu = s.biu) : Good t := ⟨hm, hp, hb ▸ h.2.2⟩

theorem irqEvents_eq (l : List IrqEvent) (s : State) : ∃ p, irqEvents l s = { s with pics := p } := by
  induction l generalizing s with
  | nil => exact ⟨s.pics, rfl⟩
  | cons e rest ih =>
    obtain ⟨p, hp⟩ := ih { s with pics := picsIrq e s.pics }
    exact ⟨p, hp⟩

/-- `t` is `s` but for storage, the controllers and what was delivered; storage stays canonical. -/
def Deposited (s t : State) : Prop :=
  ∃ m io ps d, t = { s with mem := m, ports := io, pics := ps, deliveries := d } ∧
    (memWf s.mem = true → memWf m = true) ∧ (memWf s.ports = true → memWf io = true)

theorem deposited_refl (s : State) : Deposited s s :=
  ⟨s.mem, s.ports, s.pics, s.deliveries, rfl, id, id⟩

/-- One access of the HOLD requester. A write to an unmapped address or port does nothing (R161). -/
theorem dmaAccess_eq (x : DmaAccess) (s : State) : Deposited s (dmaAccess x s) := by
  cases x with
  | writeMemory a b =>
    simp only [dmaAccess]
    cases h : regionKind s.params.memMap a with
    | none => exact deposited_refl s
    | some k =>
      simp only [depositMemory, h]
      cases k
      · exact ⟨memWrite s.mem a b, s.ports, s.pics, s.deliveries, rfl, memWf_memWrite, id⟩
      · exact deposited_refl s
      · exact ⟨s.mem, s.ports, s.pics, s.deliveries ++ [⟨.memory, a, b⟩], rfl, id, id⟩
  | readPort p =>
    simp only [dmaAccess]
    split
    · exact ⟨s.mem, s.ports, _, s.deliveries, rfl, id, id⟩
    · exact deposited_refl s
  | writePort p b =>
    simp only [dmaAccess]
    cases hp : picPort s.params.picBase s.pics p with
    | some y =>
      simp only [depositPort, hp]
      exact ⟨s.mem, s.ports, _, s.deliveries, rfl, id, id⟩
    | none =>
      cases h : regionKind s.params.portMap p.toNat with
      | none => exact deposited_refl s
      | some k =>
        simp only [depositPort, hp, h]
        cases k
        · exact ⟨s.mem, memWrite s.ports p.toNat b, s.pics, s.deliveries, rfl, id, memWf_memWrite⟩
        · exact deposited_refl s
        · exact ⟨s.mem, s.ports, s.pics, s.deliveries ++ [⟨.io, p.toNat, b⟩], rfl, id, id⟩

theorem dmaAccesses_eq (l : List DmaAccess) (s : State) : Deposited s (dmaAccesses l s) := by
  induction l generalizing s with
  | nil => exact deposited_refl s
  | cons x rest ih =>
    obtain ⟨m, io, ps, d, h1, h2, h3⟩ := dmaAccess_eq x s
    obtain ⟨m', io', ps', d', k1, k2, k3⟩ := ih (dmaAccess x s)
    refine ⟨m', io', ps', d', ?_, fun h => k2 ?_, fun h => k3 ?_⟩
    · rw [dmaAccesses, k1, h1]
    · rw [h1]
      exact h2 h
    · rw [h1]
      exact h3 h

/-- `s0` is `s` but for the environment, the controllers and the NMI inputs, one input having been used. -/
def Aside (s s0 : State) : Prop :=
  s0.cpu = s.cpu ∧ s0.eu = s.eu ∧ s0.biu = s.biu ∧ s0.stopped = s.stopped ∧ s0.params = s.params ∧
    s0.mem = s.mem ∧ s0.ports = s.ports ∧ s0.env.inputs = s.env.inputs.tail ∧ s0.progress = s.progress

theorem holdAccesses_eq (l : List DmaAccess) (s : State) : Deposited s (holdAccesses l s) := by
  unfold holdAccesses
  split
  · exact dmaAccesses_eq l s
  · exact deposited_refl s

/-- The three things the next tick can be: RESET; the HOLD requester's accesses beside a frozen CPU; or one phase
step of the Bus Cycle Engine and those accesses. -/
theorem nextTick_cases (s : State) :
    ((nextInput s).reset = true ∧ ∃ nmi s0, Aside s s0 ∧ nextTick s = resetBlock nmi s0) ∨
    ((nextInput s).reset = false ∧ frozen (nextTick s) = true ∧ ∃ s0, s0.mem = s.mem ∧ s0.ports = s.ports ∧
      s0.biu = s.biu ∧ Deposited s0 (nextTick s)) ∨
    ((nextInput s).reset = false ∧ frozen s = false ∧ ∃ hold s0, Aside s s0 ∧
      (s.env.inputs = [] → hold = false) ∧ Deposited (busStep hold s0) (nextTick s)) := by
  unfold nextTick tick
  cases hr : (nextInput s).reset with
  | true =>
    exact Or.inl ⟨rfl, (nextInput s).nmi,
      { dropInput s with env := { (dropInput s).env with test := (nextInput s).test } },
      ⟨rfl, rfl, rfl, rfl, rfl, rfl, rfl, rfl, rfl⟩, rfl⟩
  | false =>
    right
    obtain ⟨p, hp⟩ := irqEvents_eq (nextInput s).irq
      { dropInput s with env := { (dropInput s).env with test := (nextInput s).test } }
    simp only [Bool.false_eq_true, if_false, hp]
    cases hs : (nextInput s).stop with
    | true =>
      left
      have hd := holdAccesses_eq (nextInput s).dma { dropInput s with
        env := { (dropInput s).env with test := (nextInput s).test }, pics := p, stopped := true }
      obtain ⟨m, io, ps, d, e, -, -⟩ := id hd
      refine ⟨trivial, ?_, { dropInput s with
        env := { (dropInput s).env with test := (nextInput s).test }, pics := p, stopped := true }, rfl, rfl, rfl, hd⟩
      simp only [frozen, Bool.true_or, if_true] at e ⊢
      rw [e]
      rfl
    | false =>
      simp only [Bool.false_eq_true, if_false]
      cases hf : frozen { dropInput s with
          env := { (dropInput s).env with test := (nextInput s).test }, pics := p } with
      | true =>
        have hd := holdAccesses_eq (nextInput s).dma { dropInput s with
          env := { (dropInput s).env with test := (nextInput s).test }, pics := p }
        obtain ⟨m, io, ps, d, e, -, -⟩ := id hd
        simp only [if_true]
        exact Or.inl ⟨trivial, by rw [e]; exact hf, { dropInput s with
          env := { (dropInput s).env with test := (nextInput s).test }, pics := p }, rfl, rfl, rfl, hd⟩
      | false =>
        refine Or.inr ⟨trivial, hf, (nextInput s).hold, nmiEdge (nextInput s).nmi { dropInput s with
            env := { (dropInput s).env with test := (nextInput s).test }, pics := p }, ?_⟩
        have hh : s.env.inputs = [] → (nextInput s).hold = false := by
          intro h
          simp [nextInput, h, idleInput]
        simp only [Bool.false_eq_true, if_false]
        exact ⟨⟨rfl, rfl, rfl, rfl, rfl, rfl, rfl, rfl, rfl⟩, hh, holdAccesses_eq _ _⟩

theorem dataPhase_good (t : Txn) {s : State} (h : Good s) : Good (dataPhase t s).2 := by
  obtain ⟨hm, hp, hb⟩ := h
  obtain ⟨-, -, c, -, -, -⟩ := dataPhase_core t s
  refine ⟨?_, ?_, by rw [c]; exact hb⟩
  · unfold dataPhase
    split
    · unfold sampleMemory; split <;> exact hm
    · unfold sampleMemory; split <;> exact hm
    · unfold depositMemory; split <;> first | exact memWf_memWrite hm | exact hm
    · unfold samplePort; split
      · exact hm
      · split <;> exact hm
    · unfold depositPort; split
      · exact hm
      · split <;> exact hm
    · unfold sampleInta; simp only; split <;> exact hm
    · exact hm
  · unfold dataPhase
    split
    · unfold sampleMemory; split <;> exact hp
    · unfold sampleMemory; split <;> exact hp
    · unfold depositMemory; split <;> exact hp
    · unfold samplePort; split
      · exact hp
      · split <;> exact hp
    · unfold depositPort; split
      · exact hp
      · split <;> first | exact memWf_memWrite hp | exact hp
    · unfold sampleInta; simp only; split <;> exact hp
    · exact hp

/-- A passive bus stays well formed under arbitration, whatever it was before (R134). -/
theorem arbitrate_good {hold : Bool} {s : State} (hm : memWf s.mem = true) (hp : memWf s.ports = true)
    (hq : s.biu.queue.length ≤ Config.queueDepth) (hh : s.biu.hlda = false) : Good (arbitrate hold s) := by
  unfold arbitrate
  split
  · exact ⟨hm, hp, hq, rfl⟩
  · split
    · exact ⟨hm, hp, hq, hh, by simp, by simp⟩
    · split
      · rename_i h
        simp only [mayPrefetch, Bool.and_eq_true, decide_eq_true_eq] at h
        exact ⟨hm, hp, hq, hh, by simp, fun _ _ _ => h.1.1.1⟩
      · exact ⟨hm, hp, hq, hh⟩

/-- One phase step keeps the Bus Cycle Engine well formed. -/
theorem busStep_good {hold : Bool} {s : State} (h : Good s) : Good (busStep hold s) := by
  obtain ⟨hm, hp, hq, hb⟩ := h
  unfold busStep
  split
  · rename_i e
    rw [e] at hb
    exact arbitrate_good hm hp hq hb
  · rename_i e
    rw [e] at hb
    split
    · exact ⟨hm, hp, hq, by rw [e]; exact hb⟩
    · exact ⟨hm, hp, hq, rfl⟩
  · rename_i t e
    rw [e] at hb
    obtain ⟨h1, h2, h3⟩ := hb
    split
    · rename_i hph
      exact absurd hph h2
    · rename_i hph
      exact ⟨hm, hp, hq, h1, by simp, fun ho _ hs => h3 ho (by rw [hph]; decide) hs⟩
    · rename_i hph
      have hg := dataPhase_good t (s := s) ⟨hm, hp, hq, by rw [e]; exact ⟨h1, h2, h3⟩⟩
      obtain ⟨-, -, c, -, -, -⟩ := dataPhase_core t s
      refine ⟨hg.1, hg.2.1, ?_, ?_, by simp, fun ho _ hs => ?_⟩
      · show (dataPhase t s).2.biu.queue.length ≤ _
        rw [c]
        exact hq
      · show (dataPhase t s).2.biu.hlda = false
        rw [c]
        exact h1
      · show (dataPhase t s).2.biu.queue.length < _
        rw [c]
        exact h3 ho (by rw [hph]; decide) hs
    · rename_i hph
      unfold finishTxn
      split
      · rename_i ho
        split
        · exact ⟨hm, hp, hq, h1, by simp, by simp⟩
        · rename_i hs
          have := h3 ho (by rw [hph]; decide) (by simpa using hs)
          refine ⟨hm, hp, ?_, h1, by simp, by simp⟩
          show (s.biu.queue ++ [t.data]).length ≤ _
          simp only [List.length_append, List.length_cons, List.length_nil]
          omega
      · exact ⟨hm, hp, hq, h1, by simp, by simp⟩
    · exact arbitrate_good hm hp hq h1

/-- A phase step changes neither the register file nor the Execution Engine's own state. -/
theorem busStep_core (hold : Bool) (s : State) :
    (busStep hold s).cpu = s.cpu ∧ (busStep hold s).eu = s.eu ∧ (busStep hold s).stopped = s.stopped ∧
      (busStep hold s).params = s.params ∧ (busStep hold s).env.inputs = s.env.inputs := by
  have arb : (arbitrate hold s).cpu = s.cpu ∧ (arbitrate hold s).eu = s.eu ∧
      (arbitrate hold s).stopped = s.stopped ∧ (arbitrate hold s).params = s.params ∧
      (arbitrate hold s).env.inputs = s.env.inputs := by
    unfold arbitrate
    split
    · exact ⟨rfl, rfl, rfl, rfl, rfl⟩
    · split
      · exact ⟨rfl, rfl, rfl, rfl, rfl⟩
      · split <;> exact ⟨rfl, rfl, rfl, rfl, rfl⟩
  unfold busStep
  split
  · exact arb
  · split <;> exact ⟨rfl, rfl, rfl, rfl, rfl⟩
  · rename_i t _
    split
    · exact ⟨rfl, rfl, rfl, rfl, rfl⟩
    · exact ⟨rfl, rfl, rfl, rfl, rfl⟩
    · obtain ⟨c1, c2, -, c4, c5, c6⟩ := dataPhase_core t s
      exact ⟨c1, c2, c4, c5, c6⟩
    · unfold finishTxn
      split
      · split <;> exact ⟨rfl, rfl, rfl, rfl, rfl⟩
      · exact ⟨rfl, rfl, rfl, rfl, rfl⟩
    · exact arb

theorem biuReset_wf : BiuWf Biu.reset := ⟨by decide, rfl⟩

/-- The state after RESET satisfies the invariant. -/
theorem resetBlock_inv {nmi : Bool} {s : State} (h : Good s) : Inv (resetBlock nmi s) :=
  ⟨h.1, h.2.1, biuReset_wf, fun _ => ⟨⟨rfl, rfl⟩, rfl, fun _ => rfl, rfl⟩⟩

theorem good_aside {s s0 : State} (h : Good s) (ha : Aside s s0) : Good s0 := by
  obtain ⟨-, -, hb, -, -, hm, hp, -, -⟩ := ha
  exact ⟨hm ▸ h.1, hp ▸ h.2.1, hb ▸ h.2.2⟩

/-- Every tick keeps storage canonical and the Bus Cycle Engine well formed. -/
theorem nextTick_good {s : State} (h : Good s) : Good (nextTick s) := by
  rcases nextTick_cases s with ⟨-, nmi, s0, ha, e⟩ | ⟨-, -, s0, hm, hp, hb, m, io, ps, d, e, hw, hw2⟩ | ⟨-, -, hold, s0, ha, -, m, io, ps, d, e, hw, hw2⟩
  · rw [e]
    have := resetBlock_inv (nmi := nmi) (good_aside h ha)
    exact ⟨this.1, this.2.1, this.2.2.1⟩
  · rw [e]
    exact ⟨hw (hm ▸ h.1), hw2 (hp ▸ h.2.1), hb ▸ h.2.2⟩
  · rw [e]
    have g := busStep_good (hold := hold) (good_aside h ha)
    exact ⟨hw g.1, hw2 g.2.1, g.2.2⟩

/-! ### Pieces of the Execution Engine's work -/

/-- The CPU runs with its Execution Engine idle. -/
def Live (s : State) : Prop := Good s ∧ frozen s = false ∧ EuIdle s

/-- `m` from `s` leaves a live state that satisfies `Q`; or RESET a state that satisfies the invariant, or a
freeze a good one; and no waiting loop runs out. -/
def Keeps {α : Type} (m : EU α) (s : State) (Q : α → State → Prop) : Prop :=
  match m s with
  | .ok a t => Live t ∧ Q a t
  | .error .reset t => Inv t
  | .error .frozen t => Good t ∧ frozen t = true
  | .error .timeout _ => False

theorem Keeps.imp {α : Type} {m : EU α} {s : State} {P Q : α → State → Prop} (h : Keeps m s P)
    (hq : ∀ a t, Live t → P a t → Q a t) : Keeps m s Q := by
  unfold Keeps at h ⊢
  split at h
  · exact ⟨h.1, hq _ _ h.1 h.2⟩
  · exact h
  · exact h
  · exact h

theorem Keeps.bind {α β : Type} {m : EU α} {f : α → EU β} {s : State} {P : α → State → Prop}
    {Q : β → State → Prop} (h : Keeps m s P) (hf : ∀ a t, Live t → P a t → Keeps (f a) t Q) :
    Keeps (m >>= f) s Q := by
  unfold Keeps at h
  have hb : (m >>= f) s = match m s with
      | .ok a t => f a t
      | .error e t => .error e t := by
    show EStateM.bind m f s = _
    unfold EStateM.bind
    cases m s <;> rfl
  unfold Keeps
  rw [hb]
  cases hm : m s with
  | ok a t =>
    rw [hm] at h
    exact hf a t h.1 h.2
  | error e t =>
    rw [hm] at h
    cases e <;> exact h

theorem Keeps.pure {α : Type} {a : α} {s : State} {Q : α → State → Prop} (hl : Live s) (hq : Q a s) :
    Keeps (Pure.pure a : EU α) s Q := ⟨hl, hq⟩

theorem Keeps.readS_bind {α β : Type} {f : State → α} {g : α → EU β} {s : State} {Q : β → State → Prop}
    (h : Keeps (g (f s)) s Q) : Keeps (readS f >>= g) s Q := h

theorem Keeps.modifyS {f : State → State} {s : State} {Q : Unit → State → Prop} (hl : Live (f s))
    (hq : Q () (f s)) : Keeps (modifyS f) s Q := ⟨hl, hq⟩

/-- The outcome of a tick that the Execution Engine waits in. -/
theorem passTick_cases {s : State} (hg : Good s) :
    (passTick s = .error .reset (nextTick s) ∧ Inv (nextTick s)) ∨
    (passTick s = .error .frozen (nextTick s) ∧ Good (nextTick s) ∧ frozen (nextTick s) = true) ∨
    (passTick s = .ok () (nextTick s) ∧ Good (nextTick s) ∧ frozen (nextTick s) = false ∧
      frozen s = false ∧ ∃ hold s0, Aside s s0 ∧ (s.env.inputs = [] → hold = false) ∧
        Deposited (busStep hold s0) (nextTick s)) := by
  unfold passTick
  rcases nextTick_cases s with ⟨hr, nmi, s0, ha, e⟩ | ⟨hr, hf, -⟩ | ⟨hr, hf, hold, s0, ha, hh, hd⟩
  · left
    rw [if_pos hr]
    exact ⟨rfl, by rw [e]; exact resetBlock_inv (good_aside hg ha)⟩
  · right; left
    simp [hr, hf, nextTick_good hg]
  · right; right
    have hff : frozen (nextTick s) = false := by
      obtain ⟨m, io, ps, d, e, -, -⟩ := hd
      rw [e, ← hf]
      obtain ⟨-, b2, b3, -⟩ := busStep_core hold s0
      exact frozen_congr (b3.trans ha.2.2.2.1) (b2.trans ha.2.1)
    simp only [hr, hff, Bool.false_eq_true, if_false]
    exact ⟨trivial, nextTick_good hg, trivial, hf, hold, s0, ha, hh, hd⟩

/-- One round of the waiting loop. -/
theorem awaitBus_succ (n : Nat) (s : State) : awaitBus (n + 1) s = match passTick s with
    | .ok _ t => (match deliveredByte t with
      | some b => .ok b t
      | none => awaitBus n t)
    | .error e t => .error e t := by
  show EStateM.bind passTick _ s = _
  unfold EStateM.bind
  cases passTick s with
  | ok a t =>
    show EStateM.bind (readS deliveredByte) _ t = _
    simp only [EStateM.bind, readS]
    cases deliveredByte t <;> rfl
  | error e t => rfl

/-- Once the data phase of a request has passed, one more tick delivers its byte. -/
theorem awaitBus_keeps_sampled {r : Request} {b : Byte} {s : State} (n : Nat) (hs : Sampled r b s)
    (hg : Good s) : Keeps (awaitBus (n + 1)) s fun _ t => t.eu = s.eu ∧ t.cpu = s.cpu := by
  have hb := awaitBus_succ n s
  unfold Keeps
  rw [hb]
  rcases passTick_cases hg with ⟨e, h⟩ | ⟨e, h⟩ | ⟨e, h1, h2, h3, hold, s0, ha, hh, m, io, ps, dl, e', -, -⟩
  · rw [e]; exact h
  · rw [e]; exact h
  · obtain ⟨hreq, hbus⟩ := hs
    have hbus0 : s0.biu.bus = .busy { txnOf r with phase := .data, data := b } := by rw [ha.2.2.1, hbus]
    have hstep : busStep hold s0 = finishTxn { txnOf r with phase := .data, data := b }
        (setBus (.busy { txnOf r with phase := .clear, data := b }) s0) := by
      simp [busStep, hbus0, txnOf]
    have hd : deliveredByte (nextTick s) = some b := by
      rw [e', hstep]
      simp [deliveredByte, finishTxn, txnOf]
    rw [e]
    simp only [hd]
    refine ⟨⟨h1, h2, ?_⟩, ?_, ?_⟩
    · rw [e', hstep]
      exact ⟨rfl, rfl⟩
    · rw [e']
      exact (busStep_core hold s0).2.1.trans ha.2.1
    · rw [e']
      exact (busStep_core hold s0).1.trans ha.1

/-- A pending request completes, unless the CPU is reset or frozen first. -/
theorem awaitBus_keeps_waiting {r : Request} (n : Nat) {s : State} (hw : Waiting r s)
    (hn : waitCost s + 2 ≤ n) (hg : Good s) :
    Keeps (awaitBus n) s fun _ t => t.eu = s.eu ∧ t.cpu = s.cpu := by
  induction n generalizing s with
  | zero => omega
  | succ n ih =>
    have hb := awaitBus_succ n s
    rcases passTick_cases hg with ⟨e, h⟩ | ⟨e, h⟩ | ⟨e, h1, h2, h3, hold, s0, ha, hh, m, io, ps, dl, e', -, -⟩
    · unfold Keeps; rw [hb, e]; exact h
    · unfold Keeps; rw [hb, e]; exact h
    · have hw0 : Waiting r s0 := by
        unfold Waiting at hw ⊢
        rw [ha.2.2.1]
        exact hw
      have heu : (nextTick s).eu = s.eu := by rw [e']; exact (busStep_core hold s0).2.1.trans ha.2.1
      have hcpu : (nextTick s).cpu = s.cpu := by rw [e']; exact (busStep_core hold s0).1.trans ha.1
      have hin : (nextTick s).env.inputs = s.env.inputs.tail := by
        rw [e']; exact (busStep_core hold s0).2.2.2.2.trans ha.2.2.2.2.2.2.2.1
      rcases busStep_waiting (hold := hold) hw0 with ⟨c1, -, -, -, c5, c6⟩ | ⟨c1, c2⟩
      · have hd : deliveredByte (nextTick s) = none := by
          rw [e']
          exact c5
        have hw' : Waiting r (nextTick s) := by
          rw [e']
          exact c1
        have hcost : waitCost (nextTick s) + 2 ≤ n := by
          have hc : busCost (nextTick s).biu.bus = busCost (busStep hold s0).biu.bus := by rw [e']
          have h0 : s0.biu.bus = s.biu.bus := by rw [ha.2.2.1]
          unfold waitCost at hn ⊢
          rw [hin, hc]
          rw [h0] at c6
          rcases c6 with c6 | ⟨c6, c7⟩
          · have : s.env.inputs.tail.length ≤ s.env.inputs.length := by simp
            omega
          · cases hi : s.env.inputs with
            | nil => rw [hh hi] at c6; cases c6
            | cons x xs => rw [hi] at hn; simp at hn ⊢; omega
        have := ih hw' hcost h1
        unfold Keeps at this ⊢
        rw [hb, e]
        simp only [hd]
        rw [heu, hcpu] at this
        exact this
      · have hs : Sampled r (dataPhase (txnOf r) s0).1 (nextTick s) := by
          rw [e', c1]
          refine ⟨?_, rfl⟩
          show (dataPhase (txnOf r) s0).2.biu.euReq = some r
          rw [(dataPhase_core (txnOf r) s0).2.2.1]
          exact hw0.1
        have hd : deliveredByte (nextTick s) = none := by
          have := hs.2
          unfold deliveredByte
          rw [this]
          simp
        obtain ⟨k, rfl⟩ : ∃ k, n = k + 1 := ⟨n - 1, by unfold waitCost at hn; omega⟩
        have := awaitBus_keeps_sampled k hs h1
        unfold Keeps at this ⊢
        rw [hb, e]
        simp only [hd]
        rw [heu, hcpu] at this
        exact this

/-- A bus access keeps the register file and the Execution Engine's own state. -/
theorem Keeps.busAccess {r : Request} {s : State} (hl : Live s) :
    Keeps (busAccess r) s fun _ t => t.eu = s.eu ∧ t.cpu = s.cpu := by
  obtain ⟨hg, hf, hi⟩ := hl
  have hw : Waiting r { s with biu := { s.biu with euReq := some r } } := ⟨rfl, Or.inl hi.2⟩
  refine awaitBus_keeps_waiting (tickBound s) hw ?_ ⟨hg.1, hg.2.1, hg.2.2⟩
  have := busCost_le s.biu.bus
  simp only [waitCost, tickBound]
  omega

/-! ### Operations that keep a live state -/

/-- `m` keeps a live state live, whatever it starts from. -/
def Safe {α : Type} (m : EU α) : Prop := ∀ s, Live s → Keeps m s fun _ _ => True

theorem Safe.bind {α β : Type} {m : EU α} {f : α → EU β} (h : Safe m) (hf : ∀ a, Safe (f a)) :
    Safe (m >>= f) := fun s hl => (h s hl).bind fun a t ht _ => hf a t ht

theorem Safe.pure {α : Type} (a : α) : Safe (Pure.pure a : EU α) := fun _ hl => ⟨hl, trivial⟩

theorem Safe.readS {α : Type} (f : State → α) : Safe (Machine.readS f) := fun _ hl => ⟨hl, trivial⟩

theorem Safe.modifyCpu (f : Cpu → Cpu) : Safe (Machine.modifyCpu f) := fun _ hl => ⟨hl, trivial⟩

theorem Safe.modifyFlags (f : Flags → Flags) : Safe (Machine.modifyFlags f) := fun _ hl => ⟨hl, trivial⟩

theorem Safe.modifyEu {f : Eu → Eu} (hf : ∀ e, (f e).faulted = e.faulted) : Safe (Machine.modifyEu f) := by
  intro s hl
  refine ⟨⟨hl.1, ?_, hl.2.2⟩, trivial⟩
  rw [← hl.2.1]
  simp [frozen, hf]

theorem Safe.drawBit : Safe drawBit := fun _ hl => ⟨hl, trivial⟩

theorem Safe.drawIf (b : Bool) : Safe (Machine.drawIf b) := by
  cases b
  · exact Safe.pure false
  · exact Safe.drawBit

theorem Safe.busAccess (r : Request) : Safe (Machine.busAccess r) :=
  fun _ hl => (Keeps.busAccess hl).imp fun _ _ _ _ => trivial

theorem Safe.memRead8 (seg off : Word) : Safe (Machine.memRead8 seg off) := Safe.busAccess _

theorem Safe.memWrite8 (seg off : Word) (b : Byte) : Safe (Machine.memWrite8 seg off b) :=
  (Safe.busAccess _).bind fun _ => Safe.pure ()

theorem Safe.memRead16 (seg off : Word) : Safe (Machine.memRead16 seg off) :=
  (Safe.memRead8 _ _).bind fun _ => (Safe.memRead8 _ _).bind fun _ => Safe.pure _

theorem Safe.memWrite16 (seg off v : Word) : Safe (Machine.memWrite16 seg off v) :=
  (Safe.memWrite8 _ _ _).bind fun _ => Safe.memWrite8 _ _ _

theorem Safe.portRead8 (p : Word) : Safe (Machine.portRead8 p) := Safe.busAccess _

theorem Safe.portWrite8 (p : Word) (b : Byte) : Safe (Machine.portWrite8 p b) :=
  (Safe.busAccess _).bind fun _ => Safe.pure ()

theorem Safe.portRead16 (p : Word) : Safe (Machine.portRead16 p) :=
  (Safe.portRead8 _).bind fun _ => (Safe.portRead8 _).bind fun _ => Safe.pure _

theorem Safe.portWrite16 (p v : Word) : Safe (Machine.portWrite16 p v) :=
  (Safe.portWrite8 _ _).bind fun _ => Safe.portWrite8 _ _

theorem Safe.readFarPointer (seg off : Word) : Safe (Machine.readFarPointer seg off) :=
  (Safe.memRead16 _ _).bind fun _ => (Safe.memRead16 _ _).bind fun _ => Safe.pure _

theorem Safe.push (v : Word) : Safe (Machine.push v) :=
  (Safe.modifyCpu _).bind fun _ => (Safe.readS _).bind fun _ => Safe.memWrite16 _ _ _

theorem Safe.pop : Safe Machine.pop :=
  (Safe.readS _).bind fun _ => (Safe.memRead16 _ _).bind fun _ => (Safe.modifyCpu _).bind fun _ => Safe.pure _

/-- Emptying the queue keeps the Bus Cycle Engine well formed. -/
theorem flushQueue_wf {b : Biu} (h : BiuWf b) : BiuWf (flushQueue b) := by
  obtain ⟨-, hb⟩ := h
  refine ⟨by simp [flushQueue], ?_⟩
  cases hbus : b.bus with
  | passive => rw [hbus] at hb; simp only [flushQueue, staleBus, hbus]; exact hb
  | held => rw [hbus] at hb; simp only [flushQueue, staleBus, hbus]; exact hb
  | busy t =>
    rw [hbus] at hb
    by_cases hc : t.owner = .prefetch ∧ t.phase ≠ .clear
    · simp only [flushQueue, staleBus, hbus, if_pos hc]
      exact ⟨hb.1, hb.2.1, by simp⟩
    · simp only [flushQueue, staleBus, hbus, if_neg hc]
      exact ⟨hb.1, hb.2.1, fun ho h _ => absurd ⟨ho, h⟩ hc⟩

theorem Safe.jump (off : Word) : Safe (Machine.jump off) := fun _ hl =>
  ⟨⟨⟨hl.1.1, hl.1.2.1, flushQueue_wf hl.1.2.2⟩, hl.2.1, hl.2.2.1, busQuiet_staleBus hl.2.2.2⟩, trivial⟩

theorem Safe.jumpFar (seg off : Word) : Safe (Machine.jumpFar seg off) := fun _ hl =>
  ⟨⟨⟨hl.1.1, hl.1.2.1, flushQueue_wf hl.1.2.2⟩, hl.2.1, hl.2.2.1, busQuiet_staleBus hl.2.2.2⟩, trivial⟩

theorem Safe.setLockOut (b : Bool) : Safe (Machine.setLockOut b) := fun _ hl => ⟨hl, trivial⟩

theorem Safe.interruptEntry (n : Byte) (ret : Word) : Safe (Machine.interruptEntry n ret) := by
  unfold Machine.interruptEntry
  refine Safe.bind (Safe.modifyEu fun _ => rfl) fun _ => ?_
  refine Safe.bind (Safe.readS _) fun _ => ?_
  refine Safe.bind (Safe.push _) fun _ => ?_
  refine Safe.bind (Safe.modifyFlags _) fun _ => ?_
  refine Safe.bind (Safe.readS _) fun _ => ?_
  refine Safe.bind (Safe.push _) fun _ => ?_
  refine Safe.bind (Safe.push _) fun _ => ?_
  refine Safe.bind (Safe.memRead16 _ _) fun _ => ?_
  exact Safe.bind (Safe.memRead16 _ _) fun _ => Safe.jumpFar _ _

theorem Safe.enterAtIp (n : Byte) : Safe (Machine.enterAtIp n) :=
  (Safe.readS _).bind fun _ => Safe.interruptEntry _ _

theorem Safe.interruptReturn : Safe Machine.interruptReturn :=
  Safe.pop.bind fun _ => Safe.pop.bind fun _ => Safe.pop.bind fun _ => (Safe.jumpFar _ _).bind fun _ =>
    Safe.modifyFlags _

theorem Safe.intaSequence : Safe Machine.intaSequence :=
  (Safe.setLockOut _).bind fun _ => (Safe.busAccess _).bind fun _ => (Safe.busAccess _).bind fun _ =>
    (Safe.setLockOut _).bind fun _ => Safe.pure _

theorem Safe.resolve {ρ : Type} (e : Rm ρ) : Safe (Machine.resolve e) := Safe.readS _

theorem Safe.readPlace8 (p : Place Reg8) : Safe (Machine.readPlace8 p) := by
  cases p
  · exact Safe.readS _
  · exact Safe.memRead8 _ _

theorem Safe.readPlace16 (p : Place Reg16) : Safe (Machine.readPlace16 p) := by
  cases p
  · exact Safe.readS _
  · exact Safe.memRead16 _ _

theorem Safe.writePlace8 (p : Place Reg8) (v : Byte) : Safe (Machine.writePlace8 p v) := by
  cases p
  · exact Safe.modifyCpu _
  · exact Safe.memWrite8 _ _ _

theorem Safe.writePlace16 (p : Place Reg16) (v : Word) : Safe (Machine.writePlace16 p v) := by
  cases p
  · exact Safe.modifyCpu _
  · exact Safe.memWrite16 _ _ _

theorem Safe.setShadow : Safe Machine.setShadow := Safe.modifyEu fun _ => rfl

theorem Safe.aluCompute {w : Nat} (op : AluOp) (a b : BitVec w) : Safe (Machine.aluCompute op a b) :=
  (Safe.drawIf _).bind fun _ => (Safe.readS _).bind fun _ => (Safe.modifyFlags _).bind fun _ => Safe.pure _

/-- The outcome of a step is a next state that satisfies the invariant. -/
def NextInv (r : Result) : Prop := ∃ t, r = .next t ∧ Inv t

/-- What ends with the end of an instruction ends in the invariant. -/
theorem runEU_endInstr {body : EU Unit} {s : State} {Q : Unit → State → Prop} (h : Keeps body s Q) :
    NextInv (runEU (do body; endInstr) s) := by
  have hb : (do body; endInstr : EU Unit) s = match body s with
      | .ok _ t => .ok () { t with
          eu := clearPrefixes t.cpu.ip t.eu, progress := none, biu := { t.biu with lockOut := false } }
      | .error e t => .error e t := by
    show EStateM.bind body _ s = _
    unfold EStateM.bind
    cases body s <;> rfl
  unfold Keeps at h
  unfold runEU NextInv
  rw [hb]
  cases hm : body s with
  | ok a t =>
    rw [hm] at h
    exact ⟨_, rfl, h.1.1.1, h.1.1.2.1, h.1.1.2.2, fun _ => ⟨h.1.2.2, rfl, fun _ => rfl, rfl⟩⟩
  | error e t =>
    rw [hm] at h
    cases e with
    | reset => exact ⟨t, rfl, h⟩
    | frozen => exact ⟨t, rfl, h.1.1, h.1.2.1, h.1.2.2, fun hf => by rw [h.2] at hf; cases hf⟩
    | timeout => exact h.elim

/-- A whole instruction ends in the invariant. -/
theorem complete_nextInv {body : EU Unit} (h : Safe body) {s : State} (hl : Live s) :
    NextInv (complete body s) := by
  unfold complete
  cases hk : s.eu.lock with
  | false => exact runEU_endInstr (h s hl)
  | true => exact runEU_endInstr (h { s with biu := { s.biu with lockOut := true } } hl)

/-- DecodeFault ends in the invariant. -/
theorem decodeFault_nextInv {s : State} (hg : Good s) : NextInv (decodeFault s) :=
  ⟨_, rfl, hg.1, hg.2.1, hg.2.2, fun hf => by simp [frozen, faultedState] at hf⟩

end Sys2Proof.Machine
end

