-- ==== Sys2Proof/Laws/Fetch.lean ====
section
/-! SUPPORT. The fetch loop and the boundary algorithm, whatever the inputs are: a byte always arrives, a unit
has at most six, and every answer that is not a unit to run satisfies the invariant. -/

namespace Sys2Proof.Machine

/-! ### Taking a byte -/

/-- How many ticks an empty queue waits at most for a byte, without HOLD. -/
def fetchCost : Bus → Nat
  | .passive => 4
  | .held => 5
  | .busy t =>
    (match t.phase with
      | .none => 4
      | .address => 3
      | .status => 2
      | .data => 1
      | .clear => 0) + (if t.owner = .prefetch ∧ t.phase ≠ .clear ∧ t.stale = false then 0 else 4)

theorem fetchCost_le (b : Bus) : fetchCost b ≤ 8 := by
  cases b with
  | passive => decide
  | held => decide
  | busy t =>
    rcases t with ⟨kind, target, data, phase, owner, stale⟩
    cases phase <;> cases owner <;> cases stale <;> simp [fetchCost]

/-- A phase step neither locks nor unlocks the bus. -/
theorem busStep_lockOut (hold : Bool) (s : State) : (busStep hold s).biu.lockOut = s.biu.lockOut := by
  have arb : (arbitrate hold s).biu.lockOut = s.biu.lockOut := by
    unfold arbitrate
    split
    · rfl
    · split
      · rfl
      · split <;> rfl
  unfold busStep
  split
  · exact arb
  · split <;> rfl
  · rename_i t _
    split
    · rfl
    · rfl
    · show (dataPhase t s).2.biu.lockOut = _
      rw [(dataPhase_core t s).2.2.1]
    · unfold finishTxn
      split
      · split <;> rfl
      · rfl
    · exact arb

/-- A data phase leaves the position inside the work in progress. -/
theorem dataPhase_progress (t : Txn) (s : State) : (dataPhase t s).2.progress = s.progress := by
  unfold dataPhase
  split
  · unfold sampleMemory; split <;> rfl
  · unfold sampleMemory; split <;> rfl
  · unfold depositMemory; split <;> rfl
  · unfold samplePort; split
    · rfl
    · split <;> rfl
  · unfold depositPort; split
    · rfl
    · split <;> rfl
  · unfold sampleInta; simp only; split <;> rfl
  · rfl

/-- With no work in progress, a phase step begins none. -/
theorem busStep_progress {hold : Bool} {s : State} (h : s.progress = none) :
    (busStep hold s).progress = none := by
  have arb : (arbitrate hold s).progress = none := by
    unfold arbitrate
    split
    · exact h
    · split
      · exact h
      · split <;> exact h
  unfold busStep
  split
  · exact arb
  · split <;> exact h
  · rename_i t _
    split
    · exact h
    · exact h
    · exact (dataPhase_progress t s).trans h
    · unfold finishTxn
      split
      · split <;> exact h
      · simp [h]
    · exact arb

/-- Without a request, a phase step leaves the Execution Engine idle. -/
theorem busStep_idle {hold : Bool} {s : State} (h : EuIdle s) : EuIdle (busStep hold s) := by
  obtain ⟨hreq, hquiet⟩ := h
  have arb : EuIdle (arbitrate hold s) := by
    unfold arbitrate
    split
    · exact ⟨hreq, rfl⟩
    · rw [hreq]
      dsimp only
      split <;> exact ⟨hreq, rfl⟩
  unfold busStep
  split
  · exact arb
  · rename_i e
    split
    · exact ⟨hreq, hquiet⟩
    · exact ⟨hreq, rfl⟩
  · rename_i t e
    rw [e] at hquiet
    simp only [busQuiet, Bool.or_eq_true, decide_eq_true_eq, Bool.and_eq_true] at hquiet
    split
    · rename_i hp
      refine ⟨hreq, ?_⟩
      simp [hp] at hquiet
      simp [busQuiet, hquiet]
    · rename_i hp
      refine ⟨hreq, ?_⟩
      simp [hp] at hquiet
      simp [busQuiet, hquiet]
    · rename_i hp
      simp [hp] at hquiet
      refine ⟨?_, by simp [busQuiet, hquiet]⟩
      show (dataPhase t s).2.biu.euReq = none
      rw [(dataPhase_core t s).2.2.1]
      exact hreq
    · rename_i hp
      simp [hp] at hquiet
      unfold finishTxn
      rw [hquiet.1]
      dsimp only
      split <;> exact ⟨hreq, rfl⟩
    · exact arb

/-- A phase step while the Execution Engine waits for a byte: one has come, or the wait is shorter, unless
HOLD is asserted. -/
theorem busStep_fetching {hold : Bool} {s : State} (hi : EuIdle s) (hq : s.biu.queue = [])
    (hh : s.eu.halted = false) (hf : frozen s = false) (hp : ∀ t, s.biu.bus = .busy t → t.phase ≠ .none) :
    EuIdle (busStep hold s) ∧ ((busStep hold s).biu.queue ≠ [] ∨
      ((busStep hold s).biu.queue = [] ∧
        (fetchCost (busStep hold s).biu.bus < fetchCost s.biu.bus ∨
          (hold = true ∧ fetchCost (busStep hold s).biu.bus ≤ fetchCost s.biu.bus + 1)))) := by
  obtain ⟨hreq, hquiet⟩ := hi
  have hm : mayPrefetch s = true := by
    simp only [frozen, Bool.or_eq_false_iff] at hf
    simp only [mayPrefetch, hq, hh, hf.1, Bool.and_eq_true, decide_eq_true_eq, List.length_nil,
      Config.queueDepth]
    cases hfa : s.eu.faulted with
    | none => simp
    | some r => simp [hfa] at hf
  have arb : ∀ c, c = 4 → fetchCost s.biu.bus = c → busStep hold s = arbitrate hold s →
      EuIdle (busStep hold s) ∧ ((busStep hold s).biu.queue ≠ [] ∨
        ((busStep hold s).biu.queue = [] ∧
          (fetchCost (busStep hold s).biu.bus < fetchCost s.biu.bus ∨
            (hold = true ∧ fetchCost (busStep hold s).biu.bus ≤ fetchCost s.biu.bus + 1)))) := by
    intro c hc hcost he
    rw [he, hcost, hc]
    unfold arbitrate
    split
    · rename_i hl
      simp only [Bool.and_eq_true] at hl
      exact ⟨⟨hreq, rfl⟩, Or.inr ⟨hq, Or.inr ⟨hl.1, by simp [fetchCost]⟩⟩⟩
    · rw [hreq]
      exact ⟨⟨hreq, rfl⟩, Or.inr ⟨hq, Or.inl (by simp [fetchCost])⟩⟩
  cases hb : s.biu.bus with
  | passive =>
    rw [← hb]
    exact arb 4 rfl (by rw [hb]; rfl) (by simp [busStep, hb])
  | held =>
    by_cases hhold : hold = true
    · have he : busStep hold s = s := by simp [busStep, hb, hhold]
      rw [he]
      exact ⟨⟨hreq, hquiet⟩, Or.inr ⟨hq, Or.inr ⟨hhold, by rw [hb]; simp⟩⟩⟩
    · have he : busStep hold s = { s with biu := { s.biu with bus := .passive, hlda := false } } := by
        simp [busStep, hb, hhold]
      rw [he]
      exact ⟨⟨hreq, rfl⟩, Or.inr ⟨hq, Or.inl (by simp [fetchCost])⟩⟩
  | busy t =>
    have hph := hp t hb
    rw [hb] at hquiet
    simp only [busQuiet, Bool.or_eq_true, decide_eq_true_eq, Bool.and_eq_true] at hquiet
    rcases t with ⟨kind, target, data, phase, owner, stale⟩
    rcases hquiet with hc | ⟨ho, hk⟩
    · simp only at hc
      subst hc
      rw [← hb]
      exact arb 4 rfl (by rw [hb]; simp [fetchCost]) (by simp [busStep, hb])
    · simp only at ho hk
      subst ho hk
      cases phase with
      | none => exact absurd rfl hph
      | address =>
        have he : busStep hold s =
            setBus (.busy ⟨.instructionFetch, target, data, .status, .prefetch, stale⟩) s := by
          simp [busStep, hb]
        rw [he]
        exact ⟨⟨hreq, rfl⟩, Or.inr ⟨hq, Or.inl (by simp [fetchCost])⟩⟩
      | status =>
        have he : busStep hold s = setBus (.busy ⟨.instructionFetch, target,
            (dataPhase ⟨.instructionFetch, target, data, .status, .prefetch, stale⟩ s).1, .data,
            .prefetch, stale⟩) (dataPhase ⟨.instructionFetch, target, data, .status, .prefetch, stale⟩ s).2 := by
          simp [busStep, hb]
        have c3 := (dataPhase_core ⟨.instructionFetch, target, data, .status, .prefetch, stale⟩ s).2.2.1
        rw [he]
        exact ⟨⟨by simp [c3, hreq], rfl⟩, Or.inr ⟨by simp [c3, hq], Or.inl (by simp [fetchCost])⟩⟩
      | data =>
        have he : busStep hold s = finishTxn ⟨.instructionFetch, target, data, .data, .prefetch, stale⟩
            (setBus (.busy ⟨.instructionFetch, target, data, .clear, .prefetch, stale⟩) s) := by
          simp [busStep, hb]
        rw [he]
        cases stale
        · exact ⟨⟨hreq, rfl⟩, Or.inl (by simp [finishTxn])⟩
        · exact ⟨⟨hreq, rfl⟩, Or.inr ⟨hq, Or.inl (by simp [finishTxn, fetchCost])⟩⟩
      | clear =>
        rw [← hb]
        exact arb 4 rfl (by rw [hb]; simp [fetchCost]) (by simp [busStep, hb])

/-- The state after the first byte of the queue has been taken. -/
def tookByte (b : Byte) (rest : List Byte) (s : State) : State :=
  { s with
    biu := { s.biu with queue := rest }
    cpu := { s.cpu with ip := s.cpu.ip + 1 }
    eu := { s.eu with fetched := s.eu.fetched ++ [b] } }

/-- A byte that waits in the queue is taken at once. -/
theorem takeByte_cons {n : Nat} {s : State} {b : Byte} {rest : List Byte} (h : s.biu.queue = b :: rest) :
    takeByte (n + 1) s = .ok b (tookByte b rest s) := by
  simp only [takeByte, bind, EStateM.bind, readS, h, settle_eq]
  rfl

/-- With an empty queue a tick passes. -/
theorem takeByte_nil {n : Nat} {s : State} (h : s.biu.queue = []) :
    takeByte (n + 1) s = match passTick s with
      | .ok _ t => takeByte n t
      | .error e t => .error e t := by
  simp only [takeByte, bind, EStateM.bind, readS, h]
  cases passTick s <;> rfl

/-- A byte arrives and is taken, unless the CPU is reset or frozen first. -/
theorem takeByte_keeps (n : Nat) {s : State} (hl : Live s) (hh : s.eu.halted = false)
    (hn : s.biu.queue = [] → 6 * s.env.inputs.length + fetchCost s.biu.bus + 1 ≤ n) (h0 : n ≠ 0) :
    Keeps (takeByte n) s fun b t => t.eu = { s.eu with fetched := s.eu.fetched ++ [b] } ∧
      t.biu.lockOut = s.biu.lockOut := by
  induction n generalizing s with
  | zero => exact absurd rfl h0
  | succ n ih =>
    obtain ⟨hg, hf, hi⟩ := hl
    cases hq : s.biu.queue with
    | cons b rest =>
      unfold Keeps
      rw [takeByte_cons hq]
      refine ⟨⟨⟨hg.1, hg.2.1, ?_⟩, hf, hi⟩, rfl, rfl⟩
      obtain ⟨hd, hb⟩ := hg.2.2
      rw [hq] at hd hb
      simp only [List.length_cons] at hd hb
      refine ⟨by show rest.length ≤ _; omega, ?_⟩
      show match s.biu.bus with
        | .busy t => s.biu.hlda = false ∧ t.phase ≠ .none ∧
            (t.owner = .prefetch → t.phase ≠ .clear → t.stale = false → rest.length < Config.queueDepth)
        | .passive => s.biu.hlda = false
        | .held => s.biu.hlda = true
      cases hbus : s.biu.bus with
      | passive => rw [hbus] at hb; exact hb
      | held => rw [hbus] at hb; exact hb
      | busy t =>
        rw [hbus] at hb
        exact ⟨hb.1, hb.2.1, fun a b c => by have := hb.2.2 a b c; omega⟩
    | nil =>
      have hn' := hn hq
      rcases passTick_cases hg with ⟨e, h⟩ | ⟨e, h⟩ | ⟨e, h1, h2, h3, hold, s0, ha, hz, m, io, ps, dl, e', -, -⟩
      · unfold Keeps; rw [takeByte_nil hq, e]; exact h
      · unfold Keeps; rw [takeByte_nil hq, e]; exact h
      · have hph : ∀ t, s0.biu.bus = .busy t → t.phase ≠ .none := by
          intro t ht
          have hb := hg.2.2.2
          rw [← ha.2.2.1, ht] at hb
          exact hb.2.1
        have hb0 : s0.biu = s.biu := ha.2.2.1
        have hi0 : EuIdle s0 := by unfold EuIdle at hi ⊢; rw [hb0]; exact hi
        obtain ⟨k1, k2⟩ := busStep_fetching (hold := hold) hi0 (by rw [hb0, hq]) (by rw [ha.2.1, hh])
          (by rw [← hf]; exact frozen_congr ha.2.2.2.1 ha.2.1) hph
        have heu : (nextTick s).eu = s.eu := by rw [e']; exact (busStep_core hold s0).2.1.trans ha.2.1
        have hlo : (nextTick s).biu.lockOut = s.biu.lockOut := by
          rw [e']
          exact (busStep_lockOut hold s0).trans (by rw [hb0])
        have hbiu : (nextTick s).biu = (busStep hold s0).biu := by rw [e']
        have hin : (nextTick s).env.inputs = s.env.inputs.tail := by
          rw [e']; exact (busStep_core hold s0).2.2.2.2.trans ha.2.2.2.2.2.2.2.1
        have hlive : Live (nextTick s) := ⟨h1, h2, by unfold EuIdle at k1 ⊢; rw [hbiu]; exact k1⟩
        have hle : s.env.inputs.tail.length ≤ s.env.inputs.length := by simp
        have hn2 : (nextTick s).biu.queue = [] →
            6 * (nextTick s).env.inputs.length + fetchCost (nextTick s).biu.bus + 1 ≤ n := by
          intro hqq
          rw [hbiu] at hqq
          rcases k2 with k2 | ⟨-, k2⟩
          · exact absurd hqq k2
          · rw [hin, hbiu]
            rw [hb0] at k2
            rcases k2 with k2 | ⟨k2, k3⟩
            · omega
            · cases hx : s.env.inputs with
              | nil => rw [hz hx] at k2; cases k2
              | cons x xs => rw [hx] at hn'; simp at hn' ⊢; omega
        have hnz : n ≠ 0 := by
          rintro rfl
          rcases k2 with k2 | ⟨k0, k2⟩
          · have hc : fetchCost s.biu.bus = 0 := by omega
            cases hbus : s.biu.bus with
            | passive => rw [hbus] at hc; simp [fetchCost] at hc
            | held => rw [hbus] at hc; simp [fetchCost] at hc
            | busy t =>
              rw [hbus] at hc
              have := hph t (by rw [hb0, hbus])
              rcases t with ⟨kind, target, data, phase, owner, stale⟩
              cases phase <;> simp [fetchCost] at hc this
          · have := hn2 (by rw [hbiu]; exact k0)
            omega
        have := ih hlive (by rw [heu]; exact hh) hn2 hnz
        unfold Keeps at this ⊢
        rw [takeByte_nil hq, e]
        rw [heu, hlo] at this
        exact this

theorem fetchByte_keeps {s : State} (hl : Live s) (hh : s.eu.halted = false) :
    Keeps fetchByte s fun b t => t.eu = { s.eu with fetched := s.eu.fetched ++ [b] } ∧
      t.biu.lockOut = s.biu.lockOut := by
  unfold fetchByte
  refine Keeps.readS_bind (takeByte_keeps (tickBound s) hl hh ?_ ?_)
  · intro _
    have := fetchCost_le s.biu.bus
    unfold tickBound
    omega
  · unfold tickBound
    omega

/-! ### Fetching a unit -/

/-- Six bytes are always a whole unit (R245). -/
theorem decode_six {bytes : List Byte} (h : 6 ≤ bytes.length) : decode bytes ≠ .more := by
  have mem : ∀ (mode : Bits2) (rm : Bits3) (l : List Byte), 2 ≤ l.length →
      ∃ m r, decodeMem mode rm l = some (m, r) ∧ l.length ≤ r.length + 2 := by
    intro mode rm l hl
    match l, hl with
    | a :: b :: r, _ =>
      unfold decodeMem
      split
      · split
        · exact ⟨_, _, rfl, by simp⟩
        · exact ⟨_, _, rfl, by simp⟩
      · split
        · exact ⟨_, _, rfl, by simp⟩
        · exact ⟨_, _, rfl, by simp⟩
  have rmd : ∀ {ρ : Type} (f : Bits3 → ρ) (mode : Bits2) (rm : Bits3) (l : List Byte), 2 ≤ l.length →
      ∃ m r, decodeRm f mode rm l = some (m, r) ∧ l.length ≤ r.length + 2 := by
    intro ρ f mode rm l hl
    unfold decodeRm
    split
    · exact ⟨_, _, rfl, by omega⟩
    · obtain ⟨m, r, h1, h2⟩ := mem mode rm l hl
      exact ⟨_, _, by rw [h1]; rfl, h2⟩
  match bytes, h with
  | op :: a :: b :: c :: d :: e :: rest, _ =>
    simp only [decode]
    cases opEntry op with
    | op i => simp [decodeEntry]
    | ib f => simp [decodeEntry, decodeIb]
    | iw f => simp [decodeEntry, decodeIw]
    | ap f => simp [decodeEntry, decodeAp]
    | modrm f =>
      simp only [decodeEntry]
      cases f (modOf a) (regOf a) (rmOf a) with
      | stop i => simp [decodeTail]
      | e8 g =>
        obtain ⟨m, r, h1, h2⟩ := rmd Reg8.ofCode (modOf a) (rmOf a) (b :: c :: d :: e :: rest) (by simp)
        simp [decodeTail, h1]
      | e16 g =>
        obtain ⟨m, r, h1, h2⟩ := rmd Reg16.ofCode (modOf a) (rmOf a) (b :: c :: d :: e :: rest) (by simp)
        simp [decodeTail, h1]
      | mem g =>
        obtain ⟨m, r, h1, h2⟩ := mem (modOf a) (rmOf a) (b :: c :: d :: e :: rest) (by simp)
        simp [decodeTail, h1]
      | e8ib g =>
        obtain ⟨m, r, h1, h2⟩ := rmd Reg8.ofCode (modOf a) (rmOf a) (b :: c :: d :: e :: rest) (by simp)
        match r, h2 with
        | x :: xs, _ => simp [decodeTail, h1, decodeIb]
        | [], h2 => simp at h2
      | e16ib g =>
        obtain ⟨m, r, h1, h2⟩ := rmd Reg16.ofCode (modOf a) (rmOf a) (b :: c :: d :: e :: rest) (by simp)
        match r, h2 with
        | x :: xs, _ => simp [decodeTail, h1, decodeIb]
        | [], h2 => simp at h2
      | e16iw g =>
        obtain ⟨m, r, h1, h2⟩ := rmd Reg16.ofCode (modOf a) (rmOf a) (b :: c :: d :: e :: rest) (by simp)
        match r, h2 with
        | x :: y :: xs, _ => simp [decodeTail, h1, decodeIw]
        | [x], h2 => simp only [List.length_cons, List.length_nil] at h2; omega
        | [], h2 => simp only [List.length_cons, List.length_nil] at h2; omega

/-- The state in which a fetched unit runs: the CPU is live, in the middle of an instruction, not halted and
not locked. -/
def Running (s : State) : Prop :=
  Live s ∧ s.eu.fetched ≠ [] ∧ s.eu.halted = false ∧ s.biu.lockOut = false

/-- What the fetch of a unit may answer. -/
def FetchOk (r : EStateM.Result Abort State (Option Instr)) : Prop :=
  match r with
  | .ok (some _) t => Running t
  | .ok none t => Inv t
  | .error .reset t => Inv t
  | .error .frozen t => Good t ∧ frozen t = true
  | .error .timeout _ => False

/-- One round of the fetch loop. -/
theorem fetchUnit_succ (n : Nat) (bytes : List Byte) (s : State) :
    fetchUnit (n + 1) bytes s = match fetchByte s with
      | .error e t => .error e t
      | .ok b t =>
        if mustFault t (bytes ++ [b]) then .ok none (faultedState t)
        else match decode (bytes ++ [b]) with
          | .done i _ => .ok (some i) { t with eu := dropRep (bytes ++ [b]) t.eu }
          | .more => fetchUnit n (bytes ++ [b]) { t with eu := dropRep (bytes ++ [b]) t.eu } := by
  simp only [fetchUnit, bind, EStateM.bind]
  cases fetchByte s with
  | error e t => rfl
  | ok b t =>
    simp only [readS, id]
    by_cases hm : mustFault t (bytes ++ [b]) = true
    · simp only [hm, if_true]
      rfl
    · simp only [hm, if_false, Bool.false_eq_true, modifyEu]
      cases decode (bytes ++ [b]) <;> rfl

/-- A unit is fetched within six bytes, or a DecodeFault is recorded, or the CPU is reset or frozen. -/
theorem fetchUnit_ok (n : Nat) (bytes : List Byte) {s : State} (hl : Live s) (hh : s.eu.halted = false)
    (hk : s.biu.lockOut = false) (hn : n + bytes.length = 6) (hb : bytes.length < 6) :
    FetchOk (fetchUnit n bytes s) := by
  induction n generalizing s bytes with
  | zero => omega
  | succ n ih =>
    have hf := fetchByte_keeps hl hh
    rw [fetchUnit_succ]
    unfold Keeps at hf
    cases hr : fetchByte s with
    | error e t =>
      rw [hr] at hf
      cases e <;> exact hf
    | ok b t =>
      rw [hr] at hf
      obtain ⟨ht, he, hlo⟩ := hf
      simp only
      split
      · exact ⟨ht.1.1, ht.1.2.1, ht.1.2.2, fun h => by simp [frozen, faultedState] at h⟩
      · have hd : ∀ l e, (dropRep l e).fetched = e.fetched ∧ (dropRep l e).halted = e.halted ∧
            (dropRep l e).faulted = e.faulted := by
          intro l e
          unfold dropRep
          split <;> exact ⟨rfl, rfl, rfl⟩
        have hlive : Live { t with eu := dropRep (bytes ++ [b]) t.eu } := by
          refine ⟨ht.1, ?_, ht.2.2⟩
          rw [← ht.2.1]
          simp [frozen, hd]
        have hhalt : (dropRep (bytes ++ [b]) t.eu).halted = false := by
          rw [(hd _ _).2.1, he]
          exact hh
        split
        · refine ⟨hlive, ?_, hhalt, hlo.trans hk⟩
          show (dropRep _ t.eu).fetched ≠ []
          rw [(hd _ _).1, he]
          simp
        · rename_i hmore
          refine ih (bytes ++ [b]) hlive hhalt (hlo.trans hk) (by simp; omega) ?_
          by_contra hlen
          exact decode_six (bytes := bytes ++ [b]) (by omega) hmore

/-! ### Boundaries -/

/-- What the machine does next is to run a unit, or to answer a state that satisfies the invariant, or to end
the run as R975 says. -/
def NextOk (s : State) (r : Next) : Prop :=
  match r with
  | .run _ t => Running t
  | .answer (.next t) => Inv t
  | .answer (.fault f) => s.env.inputs = [] ∧
      ((∃ x, s.eu.faulted = some x ∧ f = .decodeFault x.cs x.ip x.bytes) ∨
        (s.stopped = true ∧ f = .stopped) ∨
        (s.eu.halted = true ∧ s.cpu.flags.intf = false ∧ s.nmiLatch = false ∧ f = .haltedForGood))
  | .answer (.refused _) => False

theorem nextOk_of_nextInv {s : State} {r : Result} (h : NextInv r) : NextOk s (.answer r) := by
  obtain ⟨t, rfl, ht⟩ := h
  exact ht

theorem fetchNext_ok (s0 : State) {s : State} (hl : Live s) (hh : s.eu.halted = false)
    (hk : s.biu.lockOut = false) : NextOk s0 (fetchNext s) := by
  have h := fetchUnit_ok 6 [] hl hh hk rfl (by decide)
  unfold fetchNext
  generalize fetchUnit 6 [] s = r at h ⊢
  unfold FetchOk at h
  split at h
  · exact h
  · exact h
  · exact h
  · exact ⟨h.1.1, h.1.2.1, h.1.2.2, fun hf => by rw [h.2] at hf; cases hf⟩
  · exact h.elim

/-- Pieces of work compose associatively. -/
theorem bind_assoc_eu {α β γ : Type} (m : EU α) (f : α → EU β) (g : β → EU γ) :
    (m >>= f) >>= g = m >>= fun a => f a >>= g := by
  funext s
  simp only [bind, EStateM.bind]
  cases m s <;> rfl

theorem boundaryEntry_nextInv {w : Work} {vector : EU Byte} (hv : Safe vector) {s : State} (hl : Live s) :
    NextInv (boundaryEntry w vector s) := by
  have hb : Safe (do modifyEu fun e => { e with halted := false }; let n ← vector; enterAtIp n) :=
    Safe.bind (Safe.modifyEu fun _ => rfl) fun _ => Safe.bind hv fun _ => Safe.enterAtIp _
  have := runEU_endInstr (hb (beginWork w s) hl)
  have he : boundaryEntry w vector s = runEU (do
      (do modifyEu fun e => { e with halted := false }; let n ← vector; enterAtIp n); endInstr) (beginWork w s) := by
    unfold boundaryEntry
    rw [bind_assoc_eu]
    congr 2
    funext _
    rw [bind_assoc_eu]
  rw [he]
  exact this

/-- A tick in which the Execution Engine does nothing keeps the invariant, with the boundary kept. -/
theorem nextTick_inv {s : State} (h : Inv s) : Inv (nextTick s) := by
  have hg : Good s := ⟨h.1, h.2.1, h.2.2.1⟩
  rcases nextTick_cases s with ⟨-, nmi, s0, ha, e⟩ | ⟨-, hf, -⟩ | ⟨-, hf, hold, s0, ha, -, m, io, ps, d, e, -, -⟩
  · rw [e]; exact resetBlock_inv (good_aside hg ha)
  · have := nextTick_good hg
    exact ⟨this.1, this.2.1, this.2.2, fun h => by rw [hf] at h; cases h⟩
  · have hgood := nextTick_good hg
    refine ⟨hgood.1, hgood.2.1, hgood.2.2, fun _ => ?_⟩
    obtain ⟨⟨hreq, hquiet⟩, hlo, hhalt, hpr⟩ := h.2.2.2 hf
    have hb0 : s0.biu = s.biu := ha.2.2.1
    rw [← hb0] at hreq hquiet hlo
    refine ⟨?_, ?_, ?_, ?_⟩
    · rw [e]
      exact busStep_idle ⟨hreq, hquiet⟩
    · rw [e]
      exact (busStep_lockOut hold s0).trans hlo
    · rw [e]
      intro hx
      have h1 := (busStep_core hold s0).2.1.trans ha.2.1
      have hx' : (busStep hold s0).eu.halted = true := hx
      show (busStep hold s0).eu.fetched = []
      rw [h1] at hx' ⊢
      exact hhalt hx'
    · rw [e]
      exact busStep_progress (ha.2.2.2.2.2.2.2.2.trans hpr)

theorem live_of_inv {s : State} (h : Inv s) (hf : frozen s = false) : Live s :=
  ⟨⟨h.1, h.2.1, h.2.2.1⟩, hf, (h.2.2.2 hf).1⟩

theorem haltStep_ok {s : State} (h : Inv s) (hh : s.eu.halted = true) : NextOk s (.answer (haltStep s)) := by
  unfold haltStep
  split
  · rename_i hc
    exact ⟨hc.1, Or.inr (Or.inr ⟨hh, hc.2.2.2.1, hc.2.2.2.2, rfl⟩)⟩
  · exact nextTick_inv h

theorem proceed_ok {s : State} (h : Inv s) (hf : frozen s = false) : NextOk s (proceed s) := by
  unfold proceed
  split
  · rename_i hh
    exact haltStep_ok h hh
  · rename_i hh
    have hl := live_of_inv h hf
    have hh' : s.eu.halted = false := by simpa using hh
    exact fetchNext_ok s (s := beginInstr s) ⟨hl.1, hf, hl.2.2⟩ hh' (h.2.2.2 hf).2.1

theorem boundary_ok {s : State} (h : Inv s) (hf : frozen s = false) : NextOk s (boundary s) := by
  have hl := live_of_inv h hf
  unfold boundary
  split
  · have h' : Inv { s with eu := { s.eu with shadow := false } } := h
    exact proceed_ok h' hf
  · split
    · exact nextOk_of_nextInv (boundaryEntry_nextInv (Safe.pure 2) (s := { s with nmiLatch := false }) hl)
    · split
      · exact nextOk_of_nextInv (boundaryEntry_nextInv Safe.intaSequence hl)
      · split
        · exact nextOk_of_nextInv (boundaryEntry_nextInv (Safe.pure 1) hl)
        · exact proceed_ok h hf

theorem waitStep_ok {s : State} (h : Inv s) : NextOk s (.answer (waitStep s)) := by
  have ht := nextTick_inv h
  unfold waitStep
  dsimp only
  split
  · exact ht
  · rename_i hc
    simp only [Bool.or_eq_true, not_or, Bool.not_eq_true] at hc
    obtain ⟨hreq, hlo, -, hpr⟩ := ht.2.2.2 hc.2
    split
    · exact ⟨ht.1, ht.2.1, ht.2.2.1, fun _ => ⟨hreq, hlo, fun _ => rfl, hpr⟩⟩
    · split
      · exact ⟨ht.1, ht.2.1, ht.2.2.1, fun _ => ⟨hreq, rfl, fun _ => rfl, rfl⟩⟩
      · exact ht

theorem frozenStep_ok {s : State} (h : Inv s) (hf : frozen s = true) : NextOk s (.answer (frozenStep s)) := by
  unfold frozenStep
  split
  · rename_i hi
    split
    · rename_i r hr
      exact ⟨hi, Or.inl ⟨r, hr, rfl⟩⟩
    · rename_i hr
      refine ⟨hi, Or.inr (Or.inl ⟨?_, rfl⟩)⟩
      simpa [frozen, hr] using hf
  · exact nextTick_inv h

/-- What the machine does next, from any state that satisfies the invariant. -/
theorem nextUnit_ok {s : State} (h : Inv s) : NextOk s (nextUnit s) := by
  unfold nextUnit
  split
  · rename_i hf
    exact frozenStep_ok h hf
  · rename_i hf
    have hf' : frozen s = false := by simpa using hf
    split
    · exact waitStep_ok h
    · split
      · exact boundary_ok h hf'
      · rename_i hb
        have hhalt : s.eu.halted = false := by
          cases hx : s.eu.halted with
          | false => rfl
          | true => exact absurd ((h.2.2.2 hf').2.2.1 hx) hb
        exact fetchNext_ok s (live_of_inv h hf') hhalt (h.2.2.2 hf').2.1

end Sys2Proof.Machine
end

