-- ==== Sys2Proof/Laws/PerInstr.lean ====
section
/-! SUPPORT. The per-instruction family `Length`: every unit has one to six bytes (30_encoding.md R245). -/

namespace Sys2Proof

/-- The unit's encoding has one to six bytes (R245). -/
def Laws.Length.Statement (i : Instr) : Prop := 1 ≤ (encode i).length ∧ (encode i).length ≤ 6

theorem encMem_length (reg : Bits3) (m : MemOp) : 1 ≤ (encMem reg m).length ∧ (encMem reg m).length ≤ 3 := by
  cases m <;> simp [encMem, wordBytes]

theorem encRm8_length (reg : Bits3) (e : Rm Reg8) : 1 ≤ (encRm8 reg e).length ∧ (encRm8 reg e).length ≤ 3 := by
  cases e with
  | reg r => simp [encRm8, encRm]
  | mem m => exact encMem_length reg m

theorem encRm16_length (reg : Bits3) (e : Rm Reg16) :
    1 ≤ (encRm16 reg e).length ∧ (encRm16 reg e).length ≤ 3 := by
  cases e with
  | reg r => simp [encRm16, encRm]
  | mem m => exact encMem_length reg m

theorem wordBytes_length (v : Word) : (wordBytes v).length = 2 := rfl

/-- An encoding of an opcode, an operand and at most two more bytes has one to six bytes. -/
theorem length_operand {op : Byte} {mid tail : List Byte} (h : 1 ≤ mid.length ∧ mid.length ≤ 3)
    (ht : tail.length ≤ 2) : 1 ≤ (op :: (mid ++ tail)).length ∧ (op :: (mid ++ tail)).length ≤ 6 := by
  simp only [List.length_cons, List.length_append]
  omega

theorem length_bytes {bytes : List Byte} (n : Nat) (h : bytes.length = n) (h1 : 1 ≤ n) (h6 : n ≤ 6) :
    1 ≤ bytes.length ∧ bytes.length ≤ 6 := by
  omega

theorem length_last {op : Byte} {mid : List Byte} (h : 1 ≤ mid.length ∧ mid.length ≤ 3) :
    1 ≤ (op :: mid).length ∧ (op :: mid).length ≤ 6 := by
  simp only [List.length_cons]
  omega

theorem Laws.Length.addEbGb (dst : Rm Reg8) (src : Reg8) : Laws.Length.Statement (.addEbGb dst src) :=
  length_last (encRm8_length _ _)
theorem Laws.Length.addEwGw (dst : Rm Reg16) (src : Reg16) : Laws.Length.Statement (.addEwGw dst src) :=
  length_last (encRm16_length _ _)
theorem Laws.Length.addGbEb (dst : Reg8) (src : Rm Reg8) : Laws.Length.Statement (.addGbEb dst src) :=
  length_last (encRm8_length _ _)
theorem Laws.Length.addGwEw (dst : Reg16) (src : Rm Reg16) : Laws.Length.Statement (.addGwEw dst src) :=
  length_last (encRm16_length _ _)
theorem Laws.Length.addAlIb (imm : Byte) : Laws.Length.Statement (.addAlIb imm) :=
  length_bytes 2 rfl (by decide) (by decide)
theorem Laws.Length.addAxIw (imm : Word) : Laws.Length.Statement (.addAxIw imm) :=
  length_bytes 3 rfl (by decide) (by decide)
theorem Laws.Length.addEbIb (dst : Rm Reg8) (imm : Byte) : Laws.Length.Statement (.addEbIb dst imm) :=
  length_operand (encRm8_length _ _) (Nat.le_of_ble_eq_true rfl)
theorem Laws.Length.addEwIw (dst : Rm Reg16) (imm : Word) : Laws.Length.Statement (.addEwIw dst imm) :=
  length_operand (encRm16_length _ _) (Nat.le_of_ble_eq_true rfl)
theorem Laws.Length.addEwIbs (dst : Rm Reg16) (imm : Byte) : Laws.Length.Statement (.addEwIbs dst imm) :=
  length_operand (encRm16_length _ _) (Nat.le_of_ble_eq_true rfl)
theorem Laws.Length.addEbIbAlias (dst : Rm Reg8) (imm : Byte) :
    Laws.Length.Statement (.addEbIbAlias dst imm) :=
  length_operand (encRm8_length _ _) (Nat.le_of_ble_eq_true rfl)
theorem Laws.Length.orEbGb (dst : Rm Reg8) (src : Reg8) : Laws.Length.Statement (.orEbGb dst src) :=
  length_last (encRm8_length _ _)
theorem Laws.Length.orEwGw (dst : Rm Reg16) (src : Reg16) : Laws.Length.Statement (.orEwGw dst src) :=
  length_last (encRm16_length _ _)
theorem Laws.Length.orGbEb (dst : Reg8) (src : Rm Reg8) : Laws.Length.Statement (.orGbEb dst src) :=
  length_last (encRm8_length _ _)
theorem Laws.Length.orGwEw (dst : Reg16) (src : Rm Reg16) : Laws.Length.Statement (.orGwEw dst src) :=
  length_last (encRm16_length _ _)
theorem Laws.Length.orAlIb (imm : Byte) : Laws.Length.Statement (.orAlIb imm) :=
  length_bytes 2 rfl (by decide) (by decide)
theorem Laws.Length.orAxIw (imm : Word) : Laws.Length.Statement (.orAxIw imm) :=
  length_bytes 3 rfl (by decide) (by decide)
theorem Laws.Length.orEbIb (dst : Rm Reg8) (imm : Byte) : Laws.Length.Statement (.orEbIb dst imm) :=
  length_operand (encRm8_length _ _) (Nat.le_of_ble_eq_true rfl)
theorem Laws.Length.orEwIw (dst : Rm Reg16) (imm : Word) : Laws.Length.Statement (.orEwIw dst imm) :=
  length_operand (encRm16_length _ _) (Nat.le_of_ble_eq_true rfl)
theorem Laws.Length.orEwIbs (dst : Rm Reg16) (imm : Byte) : Laws.Length.Statement (.orEwIbs dst imm) :=
  length_operand (encRm16_length _ _) (Nat.le_of_ble_eq_true rfl)
theorem Laws.Length.orEbIbAlias (dst : Rm Reg8) (imm : Byte) : Laws.Length.Statement (.orEbIbAlias dst imm) :=
  length_operand (encRm8_length _ _) (Nat.le_of_ble_eq_true rfl)
theorem Laws.Length.adcEbGb (dst : Rm Reg8) (src : Reg8) : Laws.Length.Statement (.adcEbGb dst src) :=
  length_last (encRm8_length _ _)
theorem Laws.Length.adcEwGw (dst : Rm Reg16) (src : Reg16) : Laws.Length.Statement (.adcEwGw dst src) :=
  length_last (encRm16_length _ _)
theorem Laws.Length.adcGbEb (dst : Reg8) (src : Rm Reg8) : Laws.Length.Statement (.adcGbEb dst src) :=
  length_last (encRm8_length _ _)
theorem Laws.Length.adcGwEw (dst : Reg16) (src : Rm Reg16) : Laws.Length.Statement (.adcGwEw dst src) :=
  length_last (encRm16_length _ _)
theorem Laws.Length.adcAlIb (imm : Byte) : Laws.Length.Statement (.adcAlIb imm) :=
  length_bytes 2 rfl (by decide) (by decide)
theorem Laws.Length.adcAxIw (imm : Word) : Laws.Length.Statement (.adcAxIw imm) :=
  length_bytes 3 rfl (by decide) (by decide)
theorem Laws.Length.adcEbIb (dst : Rm Reg8) (imm : Byte) : Laws.Length.Statement (.adcEbIb dst imm) :=
  length_operand (encRm8_length _ _) (Nat.le_of_ble_eq_true rfl)
theorem Laws.Length.adcEwIw (dst : Rm Reg16) (imm : Word) : Laws.Length.Statement (.adcEwIw dst imm) :=
  length_operand (encRm16_length _ _) (Nat.le_of_ble_eq_true rfl)
theorem Laws.Length.adcEwIbs (dst : Rm Reg16) (imm : Byte) : Laws.Length.Statement (.adcEwIbs dst imm) :=
  length_operand (encRm16_length _ _) (Nat.le_of_ble_eq_true rfl)
theorem Laws.Length.adcEbIbAlias (dst : Rm Reg8) (imm : Byte) :
    Laws.Length.Statement (.adcEbIbAlias dst imm) :=
  length_operand (encRm8_length _ _) (Nat.le_of_ble_eq_true rfl)
theorem Laws.Length.sbbEbGb (dst : Rm Reg8) (src : Reg8) : Laws.Length.Statement (.sbbEbGb dst src) :=
  length_last (encRm8_length _ _)
theorem Laws.Length.sbbEwGw (dst : Rm Reg16) (src : Reg16) : Laws.Length.Statement (.sbbEwGw dst src) :=
  length_last (encRm16_length _ _)
theorem Laws.Length.sbbGbEb (dst : Reg8) (src : Rm Reg8) : Laws.Length.Statement (.sbbGbEb dst src) :=
  length_last (encRm8_length _ _)
theorem Laws.Length.sbbGwEw (dst : Reg16) (src : Rm Reg16) : Laws.Length.Statement (.sbbGwEw dst src) :=
  length_last (encRm16_length _ _)
theorem Laws.Length.sbbAlIb (imm : Byte) : Laws.Length.Statement (.sbbAlIb imm) :=
  length_bytes 2 rfl (by decide) (by decide)
theorem Laws.Length.sbbAxIw (imm : Word) : Laws.Length.Statement (.sbbAxIw imm) :=
  length_bytes 3 rfl (by decide) (by decide)
theorem Laws.Length.sbbEbIb (dst : Rm Reg8) (imm : Byte) : Laws.Length.Statement (.sbbEbIb dst imm) :=
  length_operand (encRm8_length _ _) (Nat.le_of_ble_eq_true rfl)
theorem Laws.Length.sbbEwIw (dst : Rm Reg16) (imm : Word) : Laws.Length.Statement (.sbbEwIw dst imm) :=
  length_operand (encRm16_length _ _) (Nat.le_of_ble_eq_true rfl)
theorem Laws.Length.sbbEwIbs (dst : Rm Reg16) (imm : Byte) : Laws.Length.Statement (.sbbEwIbs dst imm) :=
  length_operand (encRm16_length _ _) (Nat.le_of_ble_eq_true rfl)
theorem Laws.Length.sbbEbIbAlias (dst : Rm Reg8) (imm : Byte) :
    Laws.Length.Statement (.sbbEbIbAlias dst imm) :=
  length_operand (encRm8_length _ _) (Nat.le_of_ble_eq_true rfl)
theorem Laws.Length.andEbGb (dst : Rm Reg8) (src : Reg8) : Laws.Length.Statement (.andEbGb dst src) :=
  length_last (encRm8_length _ _)
theorem Laws.Length.andEwGw (dst : Rm Reg16) (src : Reg16) : Laws.Length.Statement (.andEwGw dst src) :=
  length_last (encRm16_length _ _)
theorem Laws.Length.andGbEb (dst : Reg8) (src : Rm Reg8) : Laws.Length.Statement (.andGbEb dst src) :=
  length_last (encRm8_length _ _)
theorem Laws.Length.andGwEw (dst : Reg16) (src : Rm Reg16) : Laws.Length.Statement (.andGwEw dst src) :=
  length_last (encRm16_length _ _)
theorem Laws.Length.andAlIb (imm : Byte) : Laws.Length.Statement (.andAlIb imm) :=
  length_bytes 2 rfl (by decide) (by decide)
theorem Laws.Length.andAxIw (imm : Word) : Laws.Length.Statement (.andAxIw imm) :=
  length_bytes 3 rfl (by decide) (by decide)
theorem Laws.Length.andEbIb (dst : Rm Reg8) (imm : Byte) : Laws.Length.Statement (.andEbIb dst imm) :=
  length_operand (encRm8_length _ _) (Nat.le_of_ble_eq_true rfl)
theorem Laws.Length.andEwIw (dst : Rm Reg16) (imm : Word) : Laws.Length.Statement (.andEwIw dst imm) :=
  length_operand (encRm16_length _ _) (Nat.le_of_ble_eq_true rfl)
theorem Laws.Length.andEwIbs (dst : Rm Reg16) (imm : Byte) : Laws.Length.Statement (.andEwIbs dst imm) :=
  length_operand (encRm16_length _ _) (Nat.le_of_ble_eq_true rfl)
theorem Laws.Length.andEbIbAlias (dst : Rm Reg8) (imm : Byte) :
    Laws.Length.Statement (.andEbIbAlias dst imm) :=
  length_operand (encRm8_length _ _) (Nat.le_of_ble_eq_true rfl)
theorem Laws.Length.subEbGb (dst : Rm Reg8) (src : Reg8) : Laws.Length.Statement (.subEbGb dst src) :=
  length_last (encRm8_length _ _)
theorem Laws.Length.subEwGw (dst : Rm Reg16) (src : Reg16) : Laws.Length.Statement (.subEwGw dst src) :=
  length_last (encRm16_length _ _)
theorem Laws.Length.subGbEb (dst : Reg8) (src : Rm Reg8) : Laws.Length.Statement (.subGbEb dst src) :=
  length_last (encRm8_length _ _)
theorem Laws.Length.subGwEw (dst : Reg16) (src : Rm Reg16) : Laws.Length.Statement (.subGwEw dst src) :=
  length_last (encRm16_length _ _)
theorem Laws.Length.subAlIb (imm : Byte) : Laws.Length.Statement (.subAlIb imm) :=
  length_bytes 2 rfl (by decide) (by decide)
theorem Laws.Length.subAxIw (imm : Word) : Laws.Length.Statement (.subAxIw imm) :=
  length_bytes 3 rfl (by decide) (by decide)
theorem Laws.Length.subEbIb (dst : Rm Reg8) (imm : Byte) : Laws.Length.Statement (.subEbIb dst imm) :=
  length_operand (encRm8_length _ _) (Nat.le_of_ble_eq_true rfl)
theorem Laws.Length.subEwIw (dst : Rm Reg16) (imm : Word) : Laws.Length.Statement (.subEwIw dst imm) :=
  length_operand (encRm16_length _ _) (Nat.le_of_ble_eq_true rfl)
theorem Laws.Length.subEwIbs (dst : Rm Reg16) (imm : Byte) : Laws.Length.Statement (.subEwIbs dst imm) :=
  length_operand (encRm16_length _ _) (Nat.le_of_ble_eq_true rfl)
theorem Laws.Length.subEbIbAlias (dst : Rm Reg8) (imm : Byte) :
    Laws.Length.Statement (.subEbIbAlias dst imm) :=
  length_operand (encRm8_length _ _) (Nat.le_of_ble_eq_true rfl)
theorem Laws.Length.xorEbGb (dst : Rm Reg8) (src : Reg8) : Laws.Length.Statement (.xorEbGb dst src) :=
  length_last (encRm8_length _ _)
theorem Laws.Length.xorEwGw (dst : Rm Reg16) (src : Reg16) : Laws.Length.Statement (.xorEwGw dst src) :=
  length_last (encRm16_length _ _)
theorem Laws.Length.xorGbEb (dst : Reg8) (src : Rm Reg8) : Laws.Length.Statement (.xorGbEb dst src) :=
  length_last (encRm8_length _ _)
theorem Laws.Length.xorGwEw (dst : Reg16) (src : Rm Reg16) : Laws.Length.Statement (.xorGwEw dst src) :=
  length_last (encRm16_length _ _)
theorem Laws.Length.xorAlIb (imm : Byte) : Laws.Length.Statement (.xorAlIb imm) :=
  length_bytes 2 rfl (by decide) (by decide)
theorem Laws.Length.xorAxIw (imm : Word) : Laws.Length.Statement (.xorAxIw imm) :=
  length_bytes 3 rfl (by decide) (by decide)
theorem Laws.Length.xorEbIb (dst : Rm Reg8) (imm : Byte) : Laws.Length.Statement (.xorEbIb dst imm) :=
  length_operand (encRm8_length _ _) (Nat.le_of_ble_eq_true rfl)
theorem Laws.Length.xorEwIw (dst : Rm Reg16) (imm : Word) : Laws.Length.Statement (.xorEwIw dst imm) :=
  length_operand (encRm16_length _ _) (Nat.le_of_ble_eq_true rfl)
theorem Laws.Length.xorEwIbs (dst : Rm Reg16) (imm : Byte) : Laws.Length.Statement (.xorEwIbs dst imm) :=
  length_operand (encRm16_length _ _) (Nat.le_of_ble_eq_true rfl)
theorem Laws.Length.xorEbIbAlias (dst : Rm Reg8) (imm : Byte) :
    Laws.Length.Statement (.xorEbIbAlias dst imm) :=
  length_operand (encRm8_length _ _) (Nat.le_of_ble_eq_true rfl)
theorem Laws.Length.cmpEbGb (dst : Rm Reg8) (src : Reg8) : Laws.Length.Statement (.cmpEbGb dst src) :=
  length_last (encRm8_length _ _)
theorem Laws.Length.cmpEwGw (dst : Rm Reg16) (src : Reg16) : Laws.Length.Statement (.cmpEwGw dst src) :=
  length_last (encRm16_length _ _)
theorem Laws.Length.cmpGbEb (dst : Reg8) (src : Rm Reg8) : Laws.Length.Statement (.cmpGbEb dst src) :=
  length_last (encRm8_length _ _)
theorem Laws.Length.cmpGwEw (dst : Reg16) (src : Rm Reg16) : Laws.Length.Statement (.cmpGwEw dst src) :=
  length_last (encRm16_length _ _)
theorem Laws.Length.cmpAlIb (imm : Byte) : Laws.Length.Statement (.cmpAlIb imm) :=
  length_bytes 2 rfl (by decide) (by decide)
theorem Laws.Length.cmpAxIw (imm : Word) : Laws.Length.Statement (.cmpAxIw imm) :=
  length_bytes 3 rfl (by decide) (by decide)
theorem Laws.Length.cmpEbIb (dst : Rm Reg8) (imm : Byte) : Laws.Length.Statement (.cmpEbIb dst imm) :=
  length_operand (encRm8_length _ _) (Nat.le_of_ble_eq_true rfl)
theorem Laws.Length.cmpEwIw (dst : Rm Reg16) (imm : Word) : Laws.Length.Statement (.cmpEwIw dst imm) :=
  length_operand (encRm16_length _ _) (Nat.le_of_ble_eq_true rfl)
theorem Laws.Length.cmpEwIbs (dst : Rm Reg16) (imm : Byte) : Laws.Length.Statement (.cmpEwIbs dst imm) :=
  length_operand (encRm16_length _ _) (Nat.le_of_ble_eq_true rfl)
theorem Laws.Length.cmpEbIbAlias (dst : Rm Reg8) (imm : Byte) :
    Laws.Length.Statement (.cmpEbIbAlias dst imm) :=
  length_operand (encRm8_length _ _) (Nat.le_of_ble_eq_true rfl)
theorem Laws.Length.pushSreg (src : SReg) : Laws.Length.Statement (.pushSreg src) :=
  length_bytes 1 rfl (by decide) (by decide)
theorem Laws.Length.pushR16 (src : Reg16) : Laws.Length.Statement (.pushR16 src) :=
  length_bytes 1 rfl (by decide) (by decide)
theorem Laws.Length.pushEw (src : Rm Reg16) : Laws.Length.Statement (.pushEw src) :=
  length_last (encRm16_length _ _)
theorem Laws.Length.pushEwAlias (src : Rm Reg16) : Laws.Length.Statement (.pushEwAlias src) :=
  length_last (encRm16_length _ _)
theorem Laws.Length.popSreg (dst : SReg) : Laws.Length.Statement (.popSreg dst) :=
  length_bytes 1 rfl (by decide) (by decide)
theorem Laws.Length.popR16 (dst : Reg16) : Laws.Length.Statement (.popR16 dst) :=
  length_bytes 1 rfl (by decide) (by decide)
theorem Laws.Length.popEw (dst : Rm Reg16) : Laws.Length.Statement (.popEw dst) :=
  length_last (encRm16_length _ _)
theorem Laws.Length.popEwAlias (sel : Bits3) (dst : Rm Reg16) : Laws.Length.Statement (.popEwAlias sel dst) :=
  length_last (encRm16_length _ _)
theorem Laws.Length.xchgEbGb (e : Rm Reg8) (g : Reg8) : Laws.Length.Statement (.xchgEbGb e g) :=
  length_last (encRm8_length _ _)
theorem Laws.Length.xchgEwGw (e : Rm Reg16) (g : Reg16) : Laws.Length.Statement (.xchgEwGw e g) :=
  length_last (encRm16_length _ _)
theorem Laws.Length.xchgAxR16 (r : Reg16) : Laws.Length.Statement (.xchgAxR16 r) :=
  length_bytes 1 rfl (by decide) (by decide)
theorem Laws.Length.movEbGb (dst : Rm Reg8) (src : Reg8) : Laws.Length.Statement (.movEbGb dst src) :=
  length_last (encRm8_length _ _)
theorem Laws.Length.movEwGw (dst : Rm Reg16) (src : Reg16) : Laws.Length.Statement (.movEwGw dst src) :=
  length_last (encRm16_length _ _)
theorem Laws.Length.movGbEb (dst : Reg8) (src : Rm Reg8) : Laws.Length.Statement (.movGbEb dst src) :=
  length_last (encRm8_length _ _)
theorem Laws.Length.movGwEw (dst : Reg16) (src : Rm Reg16) : Laws.Length.Statement (.movGwEw dst src) :=
  length_last (encRm16_length _ _)
theorem Laws.Length.movEwSw (dst : Rm Reg16) (src : SReg) : Laws.Length.Statement (.movEwSw dst src) :=
  length_last (encRm16_length _ _)
theorem Laws.Length.movEwSwAlias (dst : Rm Reg16) (src : SReg) :
    Laws.Length.Statement (.movEwSwAlias dst src) :=
  length_last (encRm16_length _ _)
theorem Laws.Length.movSwEw (dst : SReg) (src : Rm Reg16) : Laws.Length.Statement (.movSwEw dst src) :=
  length_last (encRm16_length _ _)
theorem Laws.Length.movSwEwAlias (dst : SReg) (src : Rm Reg16) :
    Laws.Length.Statement (.movSwEwAlias dst src) :=
  length_last (encRm16_length _ _)
theorem Laws.Length.movCsEw (hi : Bool) (mode : Bits2) (rm : Bits3) :
    Laws.Length.Statement (.movCsEw hi mode rm) :=
  length_bytes 2 rfl (by decide) (by decide)
theorem Laws.Length.movAlOb (off : Word) : Laws.Length.Statement (.movAlOb off) :=
  length_bytes 3 rfl (by decide) (by decide)
theorem Laws.Length.movAxOw (off : Word) : Laws.Length.Statement (.movAxOw off) :=
  length_bytes 3 rfl (by decide) (by decide)
theorem Laws.Length.movObAl (off : Word) : Laws.Length.Statement (.movObAl off) :=
  length_bytes 3 rfl (by decide) (by decide)
theorem Laws.Length.movOwAx (off : Word) : Laws.Length.Statement (.movOwAx off) :=
  length_bytes 3 rfl (by decide) (by decide)
theorem Laws.Length.movR8Ib (dst : Reg8) (imm : Byte) : Laws.Length.Statement (.movR8Ib dst imm) :=
  length_bytes 2 rfl (by decide) (by decide)
theorem Laws.Length.movR16Iw (dst : Reg16) (imm : Word) : Laws.Length.Statement (.movR16Iw dst imm) :=
  length_bytes 3 rfl (by decide) (by decide)
theorem Laws.Length.movEbIb (dst : Rm Reg8) (imm : Byte) : Laws.Length.Statement (.movEbIb dst imm) :=
  length_operand (encRm8_length _ _) (Nat.le_of_ble_eq_true rfl)
theorem Laws.Length.movEwIw (dst : Rm Reg16) (imm : Word) : Laws.Length.Statement (.movEwIw dst imm) :=
  length_operand (encRm16_length _ _) (Nat.le_of_ble_eq_true rfl)
theorem Laws.Length.movEbIbAlias (sel : Bits3) (dst : Rm Reg8) (imm : Byte) :
    Laws.Length.Statement (.movEbIbAlias sel dst imm) :=
  length_operand (encRm8_length _ _) (Nat.le_of_ble_eq_true rfl)
theorem Laws.Length.movEwIwAlias (sel : Bits3) (dst : Rm Reg16) (imm : Word) :
    Laws.Length.Statement (.movEwIwAlias sel dst imm) :=
  length_operand (encRm16_length _ _) (Nat.le_of_ble_eq_true rfl)
theorem Laws.Length.lea (dst : Reg16) (src : MemOp) : Laws.Length.Statement (.lea dst src) :=
  length_last (encMem_length _ _)
theorem Laws.Length.leaReg (g : Reg16) (e : Reg16) : Laws.Length.Statement (.leaReg g e) :=
  length_bytes 2 rfl (by decide) (by decide)
theorem Laws.Length.les (dst : Reg16) (src : MemOp) : Laws.Length.Statement (.les dst src) :=
  length_last (encMem_length _ _)
theorem Laws.Length.lesReg (g : Reg16) (e : Reg16) : Laws.Length.Statement (.lesReg g e) :=
  length_bytes 2 rfl (by decide) (by decide)
theorem Laws.Length.lds (dst : Reg16) (src : MemOp) : Laws.Length.Statement (.lds dst src) :=
  length_last (encMem_length _ _)
theorem Laws.Length.ldsReg (g : Reg16) (e : Reg16) : Laws.Length.Statement (.ldsReg g e) :=
  length_bytes 2 rfl (by decide) (by decide)
theorem Laws.Length.inAlIb (port : Byte) : Laws.Length.Statement (.inAlIb port) :=
  length_bytes 2 rfl (by decide) (by decide)
theorem Laws.Length.inAxIb (port : Byte) : Laws.Length.Statement (.inAxIb port) :=
  length_bytes 2 rfl (by decide) (by decide)
theorem Laws.Length.outIbAl (port : Byte) : Laws.Length.Statement (.outIbAl port) :=
  length_bytes 2 rfl (by decide) (by decide)
theorem Laws.Length.outIbAx (port : Byte) : Laws.Length.Statement (.outIbAx port) :=
  length_bytes 2 rfl (by decide) (by decide)
theorem Laws.Length.incR16 (dst : Reg16) : Laws.Length.Statement (.incR16 dst) :=
  length_bytes 1 rfl (by decide) (by decide)
theorem Laws.Length.incEb (dst : Rm Reg8) : Laws.Length.Statement (.incEb dst) :=
  length_last (encRm8_length _ _)
theorem Laws.Length.incEw (dst : Rm Reg16) : Laws.Length.Statement (.incEw dst) :=
  length_last (encRm16_length _ _)
theorem Laws.Length.decR16 (dst : Reg16) : Laws.Length.Statement (.decR16 dst) :=
  length_bytes 1 rfl (by decide) (by decide)
theorem Laws.Length.decEb (dst : Rm Reg8) : Laws.Length.Statement (.decEb dst) :=
  length_last (encRm8_length _ _)
theorem Laws.Length.decEw (dst : Rm Reg16) : Laws.Length.Statement (.decEw dst) :=
  length_last (encRm16_length _ _)
theorem Laws.Length.notEb (dst : Rm Reg8) : Laws.Length.Statement (.notEb dst) :=
  length_last (encRm8_length _ _)
theorem Laws.Length.notEw (dst : Rm Reg16) : Laws.Length.Statement (.notEw dst) :=
  length_last (encRm16_length _ _)
theorem Laws.Length.negEb (dst : Rm Reg8) : Laws.Length.Statement (.negEb dst) :=
  length_last (encRm8_length _ _)
theorem Laws.Length.negEw (dst : Rm Reg16) : Laws.Length.Statement (.negEw dst) :=
  length_last (encRm16_length _ _)
theorem Laws.Length.mulEb (src : Rm Reg8) : Laws.Length.Statement (.mulEb src) :=
  length_last (encRm8_length _ _)
theorem Laws.Length.mulEw (src : Rm Reg16) : Laws.Length.Statement (.mulEw src) :=
  length_last (encRm16_length _ _)
theorem Laws.Length.imulEb (src : Rm Reg8) : Laws.Length.Statement (.imulEb src) :=
  length_last (encRm8_length _ _)
theorem Laws.Length.imulEw (src : Rm Reg16) : Laws.Length.Statement (.imulEw src) :=
  length_last (encRm16_length _ _)
theorem Laws.Length.divEb (src : Rm Reg8) : Laws.Length.Statement (.divEb src) :=
  length_last (encRm8_length _ _)
theorem Laws.Length.divEw (src : Rm Reg16) : Laws.Length.Statement (.divEw src) :=
  length_last (encRm16_length _ _)
theorem Laws.Length.idivEb (src : Rm Reg8) : Laws.Length.Statement (.idivEb src) :=
  length_last (encRm8_length _ _)
theorem Laws.Length.idivEw (src : Rm Reg16) : Laws.Length.Statement (.idivEw src) :=
  length_last (encRm16_length _ _)
theorem Laws.Length.aamBase (base : Byte) : Laws.Length.Statement (.aamBase base) :=
  length_bytes 2 rfl (by decide) (by decide)
theorem Laws.Length.aadBase (base : Byte) : Laws.Length.Statement (.aadBase base) :=
  length_bytes 2 rfl (by decide) (by decide)
theorem Laws.Length.testEbGb (e : Rm Reg8) (g : Reg8) : Laws.Length.Statement (.testEbGb e g) :=
  length_last (encRm8_length _ _)
theorem Laws.Length.testEwGw (e : Rm Reg16) (g : Reg16) : Laws.Length.Statement (.testEwGw e g) :=
  length_last (encRm16_length _ _)
theorem Laws.Length.testAlIb (imm : Byte) : Laws.Length.Statement (.testAlIb imm) :=
  length_bytes 2 rfl (by decide) (by decide)
theorem Laws.Length.testAxIw (imm : Word) : Laws.Length.Statement (.testAxIw imm) :=
  length_bytes 3 rfl (by decide) (by decide)
theorem Laws.Length.testEbIb (e : Rm Reg8) (imm : Byte) : Laws.Length.Statement (.testEbIb e imm) :=
  length_operand (encRm8_length _ _) (Nat.le_of_ble_eq_true rfl)
theorem Laws.Length.testEwIw (e : Rm Reg16) (imm : Word) : Laws.Length.Statement (.testEwIw e imm) :=
  length_operand (encRm16_length _ _) (Nat.le_of_ble_eq_true rfl)
theorem Laws.Length.testEbIbAlias (e : Rm Reg8) (imm : Byte) : Laws.Length.Statement (.testEbIbAlias e imm) :=
  length_operand (encRm8_length _ _) (Nat.le_of_ble_eq_true rfl)
theorem Laws.Length.testEwIwAlias (e : Rm Reg16) (imm : Word) :
    Laws.Length.Statement (.testEwIwAlias e imm) :=
  length_operand (encRm16_length _ _) (Nat.le_of_ble_eq_true rfl)
theorem Laws.Length.rolEb1 (dst : Rm Reg8) : Laws.Length.Statement (.rolEb1 dst) :=
  length_last (encRm8_length _ _)
theorem Laws.Length.rolEw1 (dst : Rm Reg16) : Laws.Length.Statement (.rolEw1 dst) :=
  length_last (encRm16_length _ _)
theorem Laws.Length.rolEbCl (dst : Rm Reg8) : Laws.Length.Statement (.rolEbCl dst) :=
  length_last (encRm8_length _ _)
theorem Laws.Length.rolEwCl (dst : Rm Reg16) : Laws.Length.Statement (.rolEwCl dst) :=
  length_last (encRm16_length _ _)
theorem Laws.Length.rorEb1 (dst : Rm Reg8) : Laws.Length.Statement (.rorEb1 dst) :=
  length_last (encRm8_length _ _)
theorem Laws.Length.rorEw1 (dst : Rm Reg16) : Laws.Length.Statement (.rorEw1 dst) :=
  length_last (encRm16_length _ _)
theorem Laws.Length.rorEbCl (dst : Rm Reg8) : Laws.Length.Statement (.rorEbCl dst) :=
  length_last (encRm8_length _ _)
theorem Laws.Length.rorEwCl (dst : Rm Reg16) : Laws.Length.Statement (.rorEwCl dst) :=
  length_last (encRm16_length _ _)
theorem Laws.Length.rclEb1 (dst : Rm Reg8) : Laws.Length.Statement (.rclEb1 dst) :=
  length_last (encRm8_length _ _)
theorem Laws.Length.rclEw1 (dst : Rm Reg16) : Laws.Length.Statement (.rclEw1 dst) :=
  length_last (encRm16_length _ _)
theorem Laws.Length.rclEbCl (dst : Rm Reg8) : Laws.Length.Statement (.rclEbCl dst) :=
  length_last (encRm8_length _ _)
theorem Laws.Length.rclEwCl (dst : Rm Reg16) : Laws.Length.Statement (.rclEwCl dst) :=
  length_last (encRm16_length _ _)
theorem Laws.Length.rcrEb1 (dst : Rm Reg8) : Laws.Length.Statement (.rcrEb1 dst) :=
  length_last (encRm8_length _ _)
theorem Laws.Length.rcrEw1 (dst : Rm Reg16) : Laws.Length.Statement (.rcrEw1 dst) :=
  length_last (encRm16_length _ _)
theorem Laws.Length.rcrEbCl (dst : Rm Reg8) : Laws.Length.Statement (.rcrEbCl dst) :=
  length_last (encRm8_length _ _)
theorem Laws.Length.rcrEwCl (dst : Rm Reg16) : Laws.Length.Statement (.rcrEwCl dst) :=
  length_last (encRm16_length _ _)
theorem Laws.Length.shlEb1 (dst : Rm Reg8) : Laws.Length.Statement (.shlEb1 dst) :=
  length_last (encRm8_length _ _)
theorem Laws.Length.shlEw1 (dst : Rm Reg16) : Laws.Length.Statement (.shlEw1 dst) :=
  length_last (encRm16_length _ _)
theorem Laws.Length.shlEbCl (dst : Rm Reg8) : Laws.Length.Statement (.shlEbCl dst) :=
  length_last (encRm8_length _ _)
theorem Laws.Length.shlEwCl (dst : Rm Reg16) : Laws.Length.Statement (.shlEwCl dst) :=
  length_last (encRm16_length _ _)
theorem Laws.Length.shrEb1 (dst : Rm Reg8) : Laws.Length.Statement (.shrEb1 dst) :=
  length_last (encRm8_length _ _)
theorem Laws.Length.shrEw1 (dst : Rm Reg16) : Laws.Length.Statement (.shrEw1 dst) :=
  length_last (encRm16_length _ _)
theorem Laws.Length.shrEbCl (dst : Rm Reg8) : Laws.Length.Statement (.shrEbCl dst) :=
  length_last (encRm8_length _ _)
theorem Laws.Length.shrEwCl (dst : Rm Reg16) : Laws.Length.Statement (.shrEwCl dst) :=
  length_last (encRm16_length _ _)
theorem Laws.Length.sarEb1 (dst : Rm Reg8) : Laws.Length.Statement (.sarEb1 dst) :=
  length_last (encRm8_length _ _)
theorem Laws.Length.sarEw1 (dst : Rm Reg16) : Laws.Length.Statement (.sarEw1 dst) :=
  length_last (encRm16_length _ _)
theorem Laws.Length.sarEbCl (dst : Rm Reg8) : Laws.Length.Statement (.sarEbCl dst) :=
  length_last (encRm8_length _ _)
theorem Laws.Length.sarEwCl (dst : Rm Reg16) : Laws.Length.Statement (.sarEwCl dst) :=
  length_last (encRm16_length _ _)
theorem Laws.Length.shiftUndoc6 (byCl : Bool) (wide : Bool) (mode : Bits2) (rm : Bits3) :
    Laws.Length.Statement (.shiftUndoc6 byCl wide mode rm) :=
  length_bytes 2 rfl (by decide) (by decide)
theorem Laws.Length.jo (disp : Byte) : Laws.Length.Statement (.jo disp) :=
  length_bytes 2 rfl (by decide) (by decide)
theorem Laws.Length.jno (disp : Byte) : Laws.Length.Statement (.jno disp) :=
  length_bytes 2 rfl (by decide) (by decide)
theorem Laws.Length.jb (disp : Byte) : Laws.Length.Statement (.jb disp) :=
  length_bytes 2 rfl (by decide) (by decide)
theorem Laws.Length.jnb (disp : Byte) : Laws.Length.Statement (.jnb disp) :=
  length_bytes 2 rfl (by decide) (by decide)
theorem Laws.Length.jz (disp : Byte) : Laws.Length.Statement (.jz disp) :=
  length_bytes 2 rfl (by decide) (by decide)
theorem Laws.Length.jnz (disp : Byte) : Laws.Length.Statement (.jnz disp) :=
  length_bytes 2 rfl (by decide) (by decide)
theorem Laws.Length.jbe (disp : Byte) : Laws.Length.Statement (.jbe disp) :=
  length_bytes 2 rfl (by decide) (by decide)
theorem Laws.Length.ja (disp : Byte) : Laws.Length.Statement (.ja disp) :=
  length_bytes 2 rfl (by decide) (by decide)
theorem Laws.Length.js (disp : Byte) : Laws.Length.Statement (.js disp) :=
  length_bytes 2 rfl (by decide) (by decide)
theorem Laws.Length.jns (disp : Byte) : Laws.Length.Statement (.jns disp) :=
  length_bytes 2 rfl (by decide) (by decide)
theorem Laws.Length.jp (disp : Byte) : Laws.Length.Statement (.jp disp) :=
  length_bytes 2 rfl (by decide) (by decide)
theorem Laws.Length.jnp (disp : Byte) : Laws.Length.Statement (.jnp disp) :=
  length_bytes 2 rfl (by decide) (by decide)
theorem Laws.Length.jl (disp : Byte) : Laws.Length.Statement (.jl disp) :=
  length_bytes 2 rfl (by decide) (by decide)
theorem Laws.Length.jge (disp : Byte) : Laws.Length.Statement (.jge disp) :=
  length_bytes 2 rfl (by decide) (by decide)
theorem Laws.Length.jle (disp : Byte) : Laws.Length.Statement (.jle disp) :=
  length_bytes 2 rfl (by decide) (by decide)
theorem Laws.Length.jg (disp : Byte) : Laws.Length.Statement (.jg disp) :=
  length_bytes 2 rfl (by decide) (by decide)
theorem Laws.Length.joAlias (disp : Byte) : Laws.Length.Statement (.joAlias disp) :=
  length_bytes 2 rfl (by decide) (by decide)
theorem Laws.Length.jnoAlias (disp : Byte) : Laws.Length.Statement (.jnoAlias disp) :=
  length_bytes 2 rfl (by decide) (by decide)
theorem Laws.Length.jbAlias (disp : Byte) : Laws.Length.Statement (.jbAlias disp) :=
  length_bytes 2 rfl (by decide) (by decide)
theorem Laws.Length.jnbAlias (disp : Byte) : Laws.Length.Statement (.jnbAlias disp) :=
  length_bytes 2 rfl (by decide) (by decide)
theorem Laws.Length.jzAlias (disp : Byte) : Laws.Length.Statement (.jzAlias disp) :=
  length_bytes 2 rfl (by decide) (by decide)
theorem Laws.Length.jnzAlias (disp : Byte) : Laws.Length.Statement (.jnzAlias disp) :=
  length_bytes 2 rfl (by decide) (by decide)
theorem Laws.Length.jbeAlias (disp : Byte) : Laws.Length.Statement (.jbeAlias disp) :=
  length_bytes 2 rfl (by decide) (by decide)
theorem Laws.Length.jaAlias (disp : Byte) : Laws.Length.Statement (.jaAlias disp) :=
  length_bytes 2 rfl (by decide) (by decide)
theorem Laws.Length.jsAlias (disp : Byte) : Laws.Length.Statement (.jsAlias disp) :=
  length_bytes 2 rfl (by decide) (by decide)
theorem Laws.Length.jnsAlias (disp : Byte) : Laws.Length.Statement (.jnsAlias disp) :=
  length_bytes 2 rfl (by decide) (by decide)
theorem Laws.Length.jpAlias (disp : Byte) : Laws.Length.Statement (.jpAlias disp) :=
  length_bytes 2 rfl (by decide) (by decide)
theorem Laws.Length.jnpAlias (disp : Byte) : Laws.Length.Statement (.jnpAlias disp) :=
  length_bytes 2 rfl (by decide) (by decide)
theorem Laws.Length.jlAlias (disp : Byte) : Laws.Length.Statement (.jlAlias disp) :=
  length_bytes 2 rfl (by decide) (by decide)
theorem Laws.Length.jgeAlias (disp : Byte) : Laws.Length.Statement (.jgeAlias disp) :=
  length_bytes 2 rfl (by decide) (by decide)
theorem Laws.Length.jleAlias (disp : Byte) : Laws.Length.Statement (.jleAlias disp) :=
  length_bytes 2 rfl (by decide) (by decide)
theorem Laws.Length.jgAlias (disp : Byte) : Laws.Length.Statement (.jgAlias disp) :=
  length_bytes 2 rfl (by decide) (by decide)
theorem Laws.Length.jmpJb (disp : Byte) : Laws.Length.Statement (.jmpJb disp) :=
  length_bytes 2 rfl (by decide) (by decide)
theorem Laws.Length.jmpJw (disp : Word) : Laws.Length.Statement (.jmpJw disp) :=
  length_bytes 3 rfl (by decide) (by decide)
theorem Laws.Length.jmpEw (target : Rm Reg16) : Laws.Length.Statement (.jmpEw target) :=
  length_last (encRm16_length _ _)
theorem Laws.Length.jmpAp (off : Word) (sel : Word) : Laws.Length.Statement (.jmpAp off sel) :=
  length_bytes 5 rfl (by decide) (by decide)
theorem Laws.Length.jmpMp (ptr : MemOp) : Laws.Length.Statement (.jmpMp ptr) :=
  length_last (encMem_length _ _)
theorem Laws.Length.jmpFarReg (e : Reg16) : Laws.Length.Statement (.jmpFarReg e) :=
  length_bytes 2 rfl (by decide) (by decide)
theorem Laws.Length.callJw (disp : Word) : Laws.Length.Statement (.callJw disp) :=
  length_bytes 3 rfl (by decide) (by decide)
theorem Laws.Length.callEw (target : Rm Reg16) : Laws.Length.Statement (.callEw target) :=
  length_last (encRm16_length _ _)
theorem Laws.Length.callAp (off : Word) (sel : Word) : Laws.Length.Statement (.callAp off sel) :=
  length_bytes 5 rfl (by decide) (by decide)
theorem Laws.Length.callMp (ptr : MemOp) : Laws.Length.Statement (.callMp ptr) :=
  length_last (encMem_length _ _)
theorem Laws.Length.callFarReg (e : Reg16) : Laws.Length.Statement (.callFarReg e) :=
  length_bytes 2 rfl (by decide) (by decide)
theorem Laws.Length.retIw (release : Word) : Laws.Length.Statement (.retIw release) :=
  length_bytes 3 rfl (by decide) (by decide)
theorem Laws.Length.retIwAlias (release : Word) : Laws.Length.Statement (.retIwAlias release) :=
  length_bytes 3 rfl (by decide) (by decide)
theorem Laws.Length.retfIw (release : Word) : Laws.Length.Statement (.retfIw release) :=
  length_bytes 3 rfl (by decide) (by decide)
theorem Laws.Length.retfIwAlias (release : Word) : Laws.Length.Statement (.retfIwAlias release) :=
  length_bytes 3 rfl (by decide) (by decide)
theorem Laws.Length.loopne (disp : Byte) : Laws.Length.Statement (.loopne disp) :=
  length_bytes 2 rfl (by decide) (by decide)
theorem Laws.Length.loope (disp : Byte) : Laws.Length.Statement (.loope disp) :=
  length_bytes 2 rfl (by decide) (by decide)
theorem Laws.Length.loop (disp : Byte) : Laws.Length.Statement (.loop disp) :=
  length_bytes 2 rfl (by decide) (by decide)
theorem Laws.Length.jcxz (disp : Byte) : Laws.Length.Statement (.jcxz disp) :=
  length_bytes 2 rfl (by decide) (by decide)
theorem Laws.Length.int (vector : Byte) : Laws.Length.Statement (.int vector) :=
  length_bytes 2 rfl (by decide) (by decide)
theorem Laws.Length.esc (op : Bits3) (reg : Bits3) (e : Rm Reg16) : Laws.Length.Statement (.esc op reg e) :=
  length_last (encRm16_length _ _)
theorem Laws.Length.feUndoc2 (mode : Bits2) (rm : Bits3) : Laws.Length.Statement (.feUndoc2 mode rm) :=
  length_bytes 2 rfl (by decide) (by decide)
theorem Laws.Length.feUndoc3 (mode : Bits2) (rm : Bits3) : Laws.Length.Statement (.feUndoc3 mode rm) :=
  length_bytes 2 rfl (by decide) (by decide)
theorem Laws.Length.feUndoc4 (mode : Bits2) (rm : Bits3) : Laws.Length.Statement (.feUndoc4 mode rm) :=
  length_bytes 2 rfl (by decide) (by decide)
theorem Laws.Length.feUndoc5 (mode : Bits2) (rm : Bits3) : Laws.Length.Statement (.feUndoc5 mode rm) :=
  length_bytes 2 rfl (by decide) (by decide)
theorem Laws.Length.feUndoc6 (mode : Bits2) (rm : Bits3) : Laws.Length.Statement (.feUndoc6 mode rm) :=
  length_bytes 2 rfl (by decide) (by decide)
theorem Laws.Length.feUndoc7 (mode : Bits2) (rm : Bits3) : Laws.Length.Statement (.feUndoc7 mode rm) :=
  length_bytes 2 rfl (by decide) (by decide)
theorem Laws.Length.esPrefix : Laws.Length.Statement .esPrefix := length_bytes 1 rfl (by decide) (by decide)
theorem Laws.Length.csPrefix : Laws.Length.Statement .csPrefix := length_bytes 1 rfl (by decide) (by decide)
theorem Laws.Length.ssPrefix : Laws.Length.Statement .ssPrefix := length_bytes 1 rfl (by decide) (by decide)
theorem Laws.Length.dsPrefix : Laws.Length.Statement .dsPrefix := length_bytes 1 rfl (by decide) (by decide)
theorem Laws.Length.lock : Laws.Length.Statement .lock := length_bytes 1 rfl (by decide) (by decide)
theorem Laws.Length.lockAlias : Laws.Length.Statement .lockAlias :=
  length_bytes 1 rfl (by decide) (by decide)
theorem Laws.Length.repne : Laws.Length.Statement .repne := length_bytes 1 rfl (by decide) (by decide)
theorem Laws.Length.repe : Laws.Length.Statement .repe := length_bytes 1 rfl (by decide) (by decide)
theorem Laws.Length.popCs : Laws.Length.Statement .popCs := length_bytes 1 rfl (by decide) (by decide)
theorem Laws.Length.xlat : Laws.Length.Statement .xlat := length_bytes 1 rfl (by decide) (by decide)
theorem Laws.Length.pushf : Laws.Length.Statement .pushf := length_bytes 1 rfl (by decide) (by decide)
theorem Laws.Length.popf : Laws.Length.Statement .popf := length_bytes 1 rfl (by decide) (by decide)
theorem Laws.Length.sahf : Laws.Length.Statement .sahf := length_bytes 1 rfl (by decide) (by decide)
theorem Laws.Length.lahf : Laws.Length.Statement .lahf := length_bytes 1 rfl (by decide) (by decide)
theorem Laws.Length.inAlDx : Laws.Length.Statement .inAlDx := length_bytes 1 rfl (by decide) (by decide)
theorem Laws.Length.inAxDx : Laws.Length.Statement .inAxDx := length_bytes 1 rfl (by decide) (by decide)
theorem Laws.Length.outDxAl : Laws.Length.Statement .outDxAl := length_bytes 1 rfl (by decide) (by decide)
theorem Laws.Length.outDxAx : Laws.Length.Statement .outDxAx := length_bytes 1 rfl (by decide) (by decide)
theorem Laws.Length.daa : Laws.Length.Statement .daa := length_bytes 1 rfl (by decide) (by decide)
theorem Laws.Length.das : Laws.Length.Statement .das := length_bytes 1 rfl (by decide) (by decide)
theorem Laws.Length.aaa : Laws.Length.Statement .aaa := length_bytes 1 rfl (by decide) (by decide)
theorem Laws.Length.aas : Laws.Length.Statement .aas := length_bytes 1 rfl (by decide) (by decide)
theorem Laws.Length.aam : Laws.Length.Statement .aam := length_bytes 2 rfl (by decide) (by decide)
theorem Laws.Length.aad : Laws.Length.Statement .aad := length_bytes 2 rfl (by decide) (by decide)
theorem Laws.Length.cbw : Laws.Length.Statement .cbw := length_bytes 1 rfl (by decide) (by decide)
theorem Laws.Length.cwd : Laws.Length.Statement .cwd := length_bytes 1 rfl (by decide) (by decide)
theorem Laws.Length.movsb : Laws.Length.Statement .movsb := length_bytes 1 rfl (by decide) (by decide)
theorem Laws.Length.movsw : Laws.Length.Statement .movsw := length_bytes 1 rfl (by decide) (by decide)
theorem Laws.Length.cmpsb : Laws.Length.Statement .cmpsb := length_bytes 1 rfl (by decide) (by decide)
theorem Laws.Length.cmpsw : Laws.Length.Statement .cmpsw := length_bytes 1 rfl (by decide) (by decide)
theorem Laws.Length.stosb : Laws.Length.Statement .stosb := length_bytes 1 rfl (by decide) (by decide)
theorem Laws.Length.stosw : Laws.Length.Statement .stosw := length_bytes 1 rfl (by decide) (by decide)
theorem Laws.Length.lodsb : Laws.Length.Statement .lodsb := length_bytes 1 rfl (by decide) (by decide)
theorem Laws.Length.lodsw : Laws.Length.Statement .lodsw := length_bytes 1 rfl (by decide) (by decide)
theorem Laws.Length.scasb : Laws.Length.Statement .scasb := length_bytes 1 rfl (by decide) (by decide)
theorem Laws.Length.scasw : Laws.Length.Statement .scasw := length_bytes 1 rfl (by decide) (by decide)
theorem Laws.Length.ret : Laws.Length.Statement .ret := length_bytes 1 rfl (by decide) (by decide)
theorem Laws.Length.retAlias : Laws.Length.Statement .retAlias := length_bytes 1 rfl (by decide) (by decide)
theorem Laws.Length.retf : Laws.Length.Statement .retf := length_bytes 1 rfl (by decide) (by decide)
theorem Laws.Length.retfAlias : Laws.Length.Statement .retfAlias :=
  length_bytes 1 rfl (by decide) (by decide)
theorem Laws.Length.int3 : Laws.Length.Statement .int3 := length_bytes 1 rfl (by decide) (by decide)
theorem Laws.Length.into : Laws.Length.Statement .into := length_bytes 1 rfl (by decide) (by decide)
theorem Laws.Length.iret : Laws.Length.Statement .iret := length_bytes 1 rfl (by decide) (by decide)
theorem Laws.Length.clc : Laws.Length.Statement .clc := length_bytes 1 rfl (by decide) (by decide)
theorem Laws.Length.stc : Laws.Length.Statement .stc := length_bytes 1 rfl (by decide) (by decide)
theorem Laws.Length.cmc : Laws.Length.Statement .cmc := length_bytes 1 rfl (by decide) (by decide)
theorem Laws.Length.cld : Laws.Length.Statement .cld := length_bytes 1 rfl (by decide) (by decide)
theorem Laws.Length.std : Laws.Length.Statement .std := length_bytes 1 rfl (by decide) (by decide)
theorem Laws.Length.cli : Laws.Length.Statement .cli := length_bytes 1 rfl (by decide) (by decide)
theorem Laws.Length.sti : Laws.Length.Statement .sti := length_bytes 1 rfl (by decide) (by decide)
theorem Laws.Length.hlt : Laws.Length.Statement .hlt := length_bytes 1 rfl (by decide) (by decide)
theorem Laws.Length.wait : Laws.Length.Statement .wait := length_bytes 1 rfl (by decide) (by decide)
theorem Laws.Length.nop : Laws.Length.Statement .nop := length_bytes 1 rfl (by decide) (by decide)
theorem Laws.Length.salc : Laws.Length.Statement .salc := length_bytes 1 rfl (by decide) (by decide)

end Sys2Proof
end

