-- ==== Sys2Proof/Laws/Signals.lean ====
section
/-! SUPPORT. While no NMI can come, an access of the Execution Engine to memory leaves none pending. -/

namespace Sys2Proof.Machine

/-- A kind of transaction that is not a port access. -/
def notPort (k : BusKind) : Prop := k ≠ .readPort ∧ k ≠ .writePort

theorem notPort_fetch : notPort .instructionFetch := ⟨by decide, by decide⟩

/-- No port access is pending, nor in flight before its data phase. -/
def NoPort (s : State) : Prop :=
  (∀ r, s.biu.euReq = some r → notPort r.kind) ∧
  (∀ t, s.biu.bus = .busy t → t.phase ≠ .clear → notPort t.kind)

theorem phys_lt (seg off : Word) : phys seg off < 0x100000 := Nat.mod_lt _ (by decide)

/-- The data phase of an access to memory latches no NMI while none can come. -/
theorem dataPhase_nmi {t : Txn} {s : State} (hk : notPort t.kind) (hq : NmiQuiet s) :
    (dataPhase t s).2.nmiLatch = false := by
  obtain ⟨h1, -, h2⟩ := hq
  have bus : ∀ k a, (s.params.busFaultNmi = false) → (busFault k a s).nmiLatch = false := by
    intro k a h
    simp [h, h1]
  have sample : ∀ k seg off, (sampleMemory k (phys seg off) s).2.nmiLatch = false := by
    intro k seg off
    unfold sampleMemory
    split
    · exact h1
    · exact h1
    · exact h1
    · rename_i hn
      rcases h2 with h2 | h2
      · exact bus k (phys seg off) h2
      · exact absurd hn (h2 _ (phys_lt seg off))
  unfold dataPhase
  split
  · exact sample _ _ _
  · exact sample _ _ _
  · rename_i seg off _ _
    unfold depositMemory
    split
    · exact h1
    · exact h1
    · exact h1
    · rename_i hn
      rcases h2 with h2 | h2
      · exact bus _ _ h2
      · exact absurd hn (h2 _ (phys_lt _ _))
  · rename_i hp _
    exact absurd hp hk.1
  · rename_i hp _
    exact absurd hp hk.2
  · unfold sampleInta
    simp only
    split <;> exact h1
  · exact h1

/-- A phase step keeps the absence of port accesses and latches no NMI while none can come. -/
theorem busStep_nmi {hold : Bool} {s : State} (hp : NoPort s) (hq : NmiQuiet s) :
    NoPort (busStep hold s) ∧ (busStep hold s).nmiLatch = false := by
  obtain ⟨hr, hb⟩ := hp
  have arb : NoPort (arbitrate hold s) ∧ (arbitrate hold s).nmiLatch = false := by
    unfold arbitrate
    split
    · exact ⟨⟨hr, fun t ht => by cases ht⟩, hq.1⟩
    · split
      · rename_i r he
        refine ⟨⟨hr, ?_⟩, hq.1⟩
        intro t ht _
        simp only [setBus_biu, Bus.busy.injEq] at ht
        subst ht
        exact hr r he
      · split
        · refine ⟨⟨hr, ?_⟩, hq.1⟩
          intro t ht _
          simp only [setBus_biu, Bus.busy.injEq] at ht
          subst ht
          exact notPort_fetch
        · exact ⟨⟨hr, fun t ht => by cases ht⟩, hq.1⟩
  unfold busStep
  split
  · exact arb
  · split
    · exact ⟨⟨hr, hb⟩, hq.1⟩
    · exact ⟨⟨hr, fun t ht => by cases ht⟩, hq.1⟩
  · rename_i t e
    have upd : ∀ (p : Phase) (d : Byte) (u : State), u.biu.euReq = s.biu.euReq → t.phase ≠ .clear →
        NoPort (setBus (.busy { t with phase := p, data := d }) u) := by
      intro p d u hu hc
      refine ⟨by simp only [setBus_biu, hu]; exact hr, ?_⟩
      intro t' ht _
      simp only [setBus_biu, Bus.busy.injEq] at ht
      subst ht
      exact hb t e hc
    split
    · rename_i h
      exact ⟨upd .address t.data s rfl (by rw [h]; decide), hq.1⟩
    · rename_i h
      exact ⟨upd .status t.data s rfl (by rw [h]; decide), hq.1⟩
    · rename_i h
      have hc : t.phase ≠ .clear := by rw [h]; decide
      refine ⟨upd .data _ _ ?_ hc, dataPhase_nmi (hb t e hc) hq⟩
      rw [(dataPhase_core t s).2.2.1]
    · unfold finishTxn
      split
      · split
        · exact ⟨⟨hr, fun t' ht hc => by simp only [setBus_biu, Bus.busy.injEq] at ht; subst ht; exact absurd rfl hc⟩,
            hq.1⟩
        · exact ⟨⟨hr, fun t' ht hc => by simp only [setBus_biu, Bus.busy.injEq] at ht; subst ht; exact absurd rfl hc⟩,
            hq.1⟩
      · refine ⟨⟨fun r hr' => ?_, fun t' ht hc => ?_⟩, hq.1⟩
        · cases hr'
        · simp only [setBus_biu, Bus.busy.injEq] at ht
          subst ht
          exact absurd rfl hc
    · exact arb

/-- What a calm tick keeps while no NMI can come. -/
def Quiet (s : State) : Prop := NmiQuiet s ∧ NoPort s ∧ Calm s.env.inputs

theorem nextTick_quiet {s : State} (hf : frozen s = false) (h : Quiet s) : Quiet (nextTick s) := by
  obtain ⟨hq, hp, hc⟩ := h
  obtain ⟨h1, h2, h3⟩ := hq
  have key : ∀ i : TickIn, i.reset = false → i.stop = false → i.irq = [] → i.dma = [] → i.nmi = false →
      nextTick s = tick i (dropInput s) → Quiet (nextTick s) := by
    intro i e1 e2 e3 e4 e5 e
    have hs : nextTick s =
        busStep i.hold (nmiEdge i.nmi { dropInput s with env := { (dropInput s).env with test := i.test } }) := by
      rw [e]
      have hf' : frozen { dropInput s with env := { (dropInput s).env with test := i.test } } = false := hf
      simp only [tick, e1, e2, e3, irqEvents, Bool.false_eq_true, if_false, hf']
      rw [e4, holdAccesses_nil]
    have hq0 : NmiQuiet (nmiEdge i.nmi { dropInput s with env := { (dropInput s).env with test := i.test } }) :=
      ⟨by simp [h1, e5], fun j hj => h2 j (List.mem_of_mem_tail hj), h3⟩
    have hp0 : NoPort (nmiEdge i.nmi { dropInput s with env := { (dropInput s).env with test := i.test } }) := hp
    obtain ⟨k1, k2⟩ := busStep_nmi (hold := i.hold) hp0 hq0
    have hpar : ∀ u : State, (busStep i.hold u).params = u.params ∧
        (busStep i.hold u).env.inputs = u.env.inputs := by
      intro u
      unfold busStep
      have arb : (arbitrate i.hold u).params = u.params ∧ (arbitrate i.hold u).env.inputs = u.env.inputs := by
        unfold arbitrate
        split
        · exact ⟨rfl, rfl⟩
        · split
          · exact ⟨rfl, rfl⟩
          · split <;> exact ⟨rfl, rfl⟩
      split
      · exact arb
      · split <;> exact ⟨rfl, rfl⟩
      · rename_i t _
        split
        · exact ⟨rfl, rfl⟩
        · exact ⟨rfl, rfl⟩
        · exact ⟨(dataPhase_core t u).2.2.2.2.1, (dataPhase_core t u).2.2.2.2.2⟩
        · unfold finishTxn
          split
          · split <;> exact ⟨rfl, rfl⟩
          · exact ⟨rfl, rfl⟩
        · exact arb
    rw [hs]
    obtain ⟨p1, p2⟩ := hpar (nmiEdge i.nmi { dropInput s with env := { (dropInput s).env with test := i.test } })
    refine ⟨⟨k2, ?_, ?_⟩, k1, ?_⟩
    · rw [p2]; exact hq0.2.1
    · rw [p1]; exact hq0.2.2
    · rw [p2]; exact calm_tail hc
  cases hi : s.env.inputs with
  | nil =>
    exact key (idleInput s) rfl rfl rfl rfl rfl (by simp [nextTick, nextInput, hi])
  | cons i rest =>
    obtain ⟨c1, c2, c3, c4⟩ := hc i (by simp [hi])
    exact key i c1 c2 c3 c4 (h2 i (by simp [hi])) (by simp [nextTick, nextInput, hi])

/-- An access to memory that completes leaves no NMI pending while none can come. -/
theorem busAccess_nmiQuiet {r : Request} {s t : State} {b : Byte} (hk : notPort r.kind) (hr : Ready s)
    (hq : NmiQuiet s) (h : busAccess r s = .ok b t) : NmiQuiet t := by
  have loop : ∀ n (u v : State), frozen u = false → Quiet u → awaitBus n u = .ok b v → Quiet v := by
    intro n
    induction n with
    | zero => intro u v _ _ h; cases h
    | succ n ih =>
      intro u v hf hu h
      have hn := nextTick_quiet hf hu
      simp only [awaitBus, bind, EStateM.bind, passTick] at h
      by_cases h1 : (nextInput u).reset = true
      · simp [h1] at h
      · by_cases h2 : frozen (nextTick u) = true
        · simp [h1, h2] at h
        · simp only [h1, h2, if_false, Bool.false_eq_true, readS] at h
          cases hd : deliveredByte (nextTick u) with
          | some x =>
            rw [hd] at h
            cases h
            exact hn
          | none =>
            rw [hd] at h
            exact ih _ _ (by simpa using h2) hn h
  refine (loop (tickBound s) { s with biu := { s.biu with euReq := some r } } t hr.1 ⟨hq, ⟨?_, ?_⟩, hr.2.2⟩ h).1
  · intro r' e
    cases e
    exact hk
  · intro x hx hc
    have hb := hr.2.1.2
    have hx' : s.biu.bus = .busy x := hx
    rw [hx'] at hb
    simp only [busQuiet, Bool.or_eq_true, decide_eq_true_eq, Bool.and_eq_true] at hb
    rcases hb with hb | ⟨-, hb⟩
    · exact absurd hb hc
    · rw [hb]
      exact ⟨by decide, by decide⟩

end Sys2Proof.Machine
end

