-- ==== Sys2Proof/Tests/Slice0.lean ====
section
/-! SUPPORT. The tests: the ill-formed terms that `Instr.wf` refuses; for every constructor a byte sequence
written out from the spec's encodings and the unit it decodes to; worked vectors of spec/95_test_vectors.md,
each on one step; and, for every obligation with hypotheses, a witness that meets them. -/

namespace Sys2Proof.Tests

open Sys2Proof Sys2Proof.Machine Sys2Proof.Claims

/-! ### Helpers -/

/-- Something of the next state, if there is one. -/
def after {α : Type} (r : Result) (f : State → α) : Option α :=
  match r with
  | .next t => some (f t)
  | .fault _ => none
  | .refused _ => none

/-- The reset state with its register file changed and some memory stored. -/
def prepared (f : Cpu → Cpu) (m : Mem) : State := { State.reset with cpu := f State.reset.cpu, mem := m }

/-- A state with its Execution Engine changed. -/
def withEu (f : Eu → Eu) (s : State) : State := { s with eu := f s.eu }

/-- A state with its master interrupt controller changed. -/
def withPic (f : Pic → Pic) (s : State) : State := { s with pics := { s.pics with master := f s.pics.master } }

/-- A state with its parameters changed. -/
def withParams (f : Params → Params) (s : State) : State := { s with params := f s.params }

/-- A state with a port map. -/
def withPorts (m : List Region) (s : State) : State := withParams (fun p => { p with portMap := m }) s

/-- A state with a prefetch queue. -/
def withQueue (q : List Byte) (s : State) : State := { s with biu := { s.biu with queue := q } }

/-- AX, DX and the six status flags OF, SF, ZF, AF, PF, CF. -/
def arith (s : State) : Word × Word × List Bool :=
  (s.cpu.ax, s.cpu.dx, [s.cpu.flags.ovf, s.cpu.flags.sf, s.cpu.flags.zf, s.cpu.flags.af, s.cpu.flags.pf,
    s.cpu.flags.cf])

/-- AX, DX, OF and CF. -/
def product (s : State) : Word × Word × Bool × Bool := (s.cpu.ax, s.cpu.dx, s.cpu.flags.ovf, s.cpu.flags.cf)

/-- AX and SF, ZF, AF, PF, CF. -/
def adjusted (s : State) : Word × List Bool :=
  (s.cpu.ax, [s.cpu.flags.sf, s.cpu.flags.zf, s.cpu.flags.af, s.cpu.flags.pf, s.cpu.flags.cf])

/-- AX and SF, ZF, PF, OF, CF. -/
def logical (s : State) : Word × List Bool :=
  (s.cpu.ax, [s.cpu.flags.sf, s.cpu.flags.zf, s.cpu.flags.pf, s.cpu.flags.ovf, s.cpu.flags.cf])

/-- AX and CF. -/
def carried (s : State) : Word × Bool := (s.cpu.ax, s.cpu.flags.cf)

/-! ### Ill-formed terms -/

/-- R220: `[BP]` without a displacement has no encoding, in any instruction. -/
theorem test_ill_formed_bp_0 : ([
    .addEbGb (.mem (.ind .bp)) .al, .addEwGw (.mem (.ind .bp)) .ax, .addGbEb .al (.mem (.ind .bp)),
    .addGwEw .ax (.mem (.ind .bp)), .addEbIb (.mem (.ind .bp)) 0, .addEwIw (.mem (.ind .bp)) 0,
    .addEwIbs (.mem (.ind .bp)) 0, .addEbIbAlias (.mem (.ind .bp)) 0, .orEbGb (.mem (.ind .bp)) .al,
    .orEwGw (.mem (.ind .bp)) .ax, .orGbEb .al (.mem (.ind .bp)), .orGwEw .ax (.mem (.ind .bp)),
    .orEbIb (.mem (.ind .bp)) 0, .orEwIw (.mem (.ind .bp)) 0, .orEwIbs (.mem (.ind .bp)) 0,
    .orEbIbAlias (.mem (.ind .bp)) 0, .adcEbGb (.mem (.ind .bp)) .al, .adcEwGw (.mem (.ind .bp)) .ax,
    .adcGbEb .al (.mem (.ind .bp)), .adcGwEw .ax (.mem (.ind .bp)), .adcEbIb (.mem (.ind .bp)) 0,
    .adcEwIw (.mem (.ind .bp)) 0, .adcEwIbs (.mem (.ind .bp)) 0, .adcEbIbAlias (.mem (.ind .bp)) 0,
    .sbbEbGb (.mem (.ind .bp)) .al, .sbbEwGw (.mem (.ind .bp)) .ax, .sbbGbEb .al (.mem (.ind .bp)),
    .sbbGwEw .ax (.mem (.ind .bp)), .sbbEbIb (.mem (.ind .bp)) 0, .sbbEwIw (.mem (.ind .bp)) 0,
    .sbbEwIbs (.mem (.ind .bp)) 0, .sbbEbIbAlias (.mem (.ind .bp)) 0, .andEbGb (.mem (.ind .bp)) .al,
    .andEwGw (.mem (.ind .bp)) .ax, .andGbEb .al (.mem (.ind .bp)), .andGwEw .ax (.mem (.ind .bp)),
    .andEbIb (.mem (.ind .bp)) 0, .andEwIw (.mem (.ind .bp)) 0, .andEwIbs (.mem (.ind .bp)) 0,
    .andEbIbAlias (.mem (.ind .bp)) 0].all fun i : Instr => !i.wf) = true := by decide

/-- R220: `[BP]` without a displacement has no encoding, in any instruction. -/
theorem test_ill_formed_bp_1 : ([
    .subEbGb (.mem (.ind .bp)) .al, .subEwGw (.mem (.ind .bp)) .ax, .subGbEb .al (.mem (.ind .bp)),
    .subGwEw .ax (.mem (.ind .bp)), .subEbIb (.mem (.ind .bp)) 0, .subEwIw (.mem (.ind .bp)) 0,
    .subEwIbs (.mem (.ind .bp)) 0, .subEbIbAlias (.mem (.ind .bp)) 0, .xorEbGb (.mem (.ind .bp)) .al,
    .xorEwGw (.mem (.ind .bp)) .ax, .xorGbEb .al (.mem (.ind .bp)), .xorGwEw .ax (.mem (.ind .bp)),
    .xorEbIb (.mem (.ind .bp)) 0, .xorEwIw (.mem (.ind .bp)) 0, .xorEwIbs (.mem (.ind .bp)) 0,
    .xorEbIbAlias (.mem (.ind .bp)) 0, .cmpEbGb (.mem (.ind .bp)) .al, .cmpEwGw (.mem (.ind .bp)) .ax,
    .cmpGbEb .al (.mem (.ind .bp)), .cmpGwEw .ax (.mem (.ind .bp)), .cmpEbIb (.mem (.ind .bp)) 0,
    .cmpEwIw (.mem (.ind .bp)) 0, .cmpEwIbs (.mem (.ind .bp)) 0, .cmpEbIbAlias (.mem (.ind .bp)) 0,
    .pushEw (.mem (.ind .bp)), .pushEwAlias (.mem (.ind .bp)), .popEw (.mem (.ind .bp)),
    .popEwAlias 1 (.mem (.ind .bp)), .xchgEbGb (.mem (.ind .bp)) .al, .xchgEwGw (.mem (.ind .bp)) .ax,
    .movEbGb (.mem (.ind .bp)) .al, .movEwGw (.mem (.ind .bp)) .ax, .movGbEb .al (.mem (.ind .bp)),
    .movGwEw .ax (.mem (.ind .bp)), .movEwSw (.mem (.ind .bp)) .es, .movEwSwAlias (.mem (.ind .bp)) .es,
    .movSwEw .es (.mem (.ind .bp)), .movSwEwAlias .es (.mem (.ind .bp)), .movEbIb (.mem (.ind .bp)) 0,
    .movEwIw (.mem (.ind .bp)) 0].all fun i : Instr => !i.wf) = true := by decide

/-- R220: `[BP]` without a displacement has no encoding, in any instruction. -/
theorem test_ill_formed_bp_2 : ([
    .movEbIbAlias 1 (.mem (.ind .bp)) 0, .movEwIwAlias 1 (.mem (.ind .bp)) 0, .lea .ax (.ind .bp),
    .les .ax (.ind .bp), .lds .ax (.ind .bp), .incEb (.mem (.ind .bp)), .incEw (.mem (.ind .bp)),
    .decEb (.mem (.ind .bp)), .decEw (.mem (.ind .bp)), .notEb (.mem (.ind .bp)), .notEw (.mem (.ind .bp)),
    .negEb (.mem (.ind .bp)), .negEw (.mem (.ind .bp)), .mulEb (.mem (.ind .bp)), .mulEw (.mem (.ind .bp)),
    .imulEb (.mem (.ind .bp)), .imulEw (.mem (.ind .bp)), .divEb (.mem (.ind .bp)),
    .divEw (.mem (.ind .bp)), .idivEb (.mem (.ind .bp)), .idivEw (.mem (.ind .bp)),
    .testEbGb (.mem (.ind .bp)) .al, .testEwGw (.mem (.ind .bp)) .ax, .testEbIb (.mem (.ind .bp)) 0,
    .testEwIw (.mem (.ind .bp)) 0, .testEbIbAlias (.mem (.ind .bp)) 0, .testEwIwAlias (.mem (.ind .bp)) 0,
    .rolEb1 (.mem (.ind .bp)), .rolEw1 (.mem (.ind .bp)), .rolEbCl (.mem (.ind .bp)),
    .rolEwCl (.mem (.ind .bp)), .rorEb1 (.mem (.ind .bp)), .rorEw1 (.mem (.ind .bp)),
    .rorEbCl (.mem (.ind .bp)), .rorEwCl (.mem (.ind .bp)), .rclEb1 (.mem (.ind .bp)),
    .rclEw1 (.mem (.ind .bp)), .rclEbCl (.mem (.ind .bp)), .rclEwCl (.mem (.ind .bp)),
    .rcrEb1 (.mem (.ind .bp))].all fun i : Instr => !i.wf) = true := by decide

/-- R220: `[BP]` without a displacement has no encoding, in any instruction. -/
theorem test_ill_formed_bp_3 : ([
    .rcrEw1 (.mem (.ind .bp)), .rcrEbCl (.mem (.ind .bp)), .rcrEwCl (.mem (.ind .bp)),
    .shlEb1 (.mem (.ind .bp)), .shlEw1 (.mem (.ind .bp)), .shlEbCl (.mem (.ind .bp)),
    .shlEwCl (.mem (.ind .bp)), .shrEb1 (.mem (.ind .bp)), .shrEw1 (.mem (.ind .bp)),
    .shrEbCl (.mem (.ind .bp)), .shrEwCl (.mem (.ind .bp)), .sarEb1 (.mem (.ind .bp)),
    .sarEw1 (.mem (.ind .bp)), .sarEbCl (.mem (.ind .bp)), .sarEwCl (.mem (.ind .bp)),
    .jmpEw (.mem (.ind .bp)), .jmpMp (.ind .bp), .callEw (.mem (.ind .bp)), .callMp (.ind .bp),
    .esc 1 1 (.mem (.ind .bp))].all fun i : Instr => !i.wf) = true := by decide

/-- R302, R304: CS is no destination of MOV or POP; R305: XCHG AX,AX is NOP; R240: an alias does not have the
documented selector, nor AAM and AAD's other-base form the base 0A. -/
theorem test_ill_formed_fields :
    ([.popSreg .cs, .movSwEw .cs (.reg .ax), .movSwEwAlias .cs (.reg .ax), .xchgAxR16 .ax, .popEwAlias 0 (.reg .ax),
      .movEbIbAlias 0 (.reg .al) 0, .movEwIwAlias 0 (.reg .ax) 0, .aamBase 0x0A, .aadBase 0x0A].all
      fun i : Instr => !i.wf) = true := by decide

/-- The neighbours of those terms are well formed. -/
theorem test_well_formed :
    ([.popSreg .ds, .movSwEw .ss (.reg .ax), .movSwEwAlias .es (.reg .ax), .xchgAxR16 .cx, .popEwAlias 1 (.reg .ax),
      .movEbIbAlias 7 (.reg .al) 0, .movEwIwAlias 1 (.reg .ax) 0, .aamBase 0, .aadBase 0x0B,
      .addEbGb (.mem (.disp8 .bp 0)) .al, .lea .ax (.ind .bpSi)].all fun i : Instr => i.wf) = true := by decide

/-! ### Decoding -/

/-- From R205, R210, R215 to R221: the encodings of `addEbGb` to `orEbIbAlias`. -/
theorem test_decode_00 :
    decode [0x00, 0x0B] = .done (.addEbGb (.mem (.ind .bpDi)) .cl) [] ∧
    decode [0x01, 0x36, 0x34, 0x12] = .done (.addEwGw (.mem (.direct 0x1234)) .si) [] ∧
    decode [0x02, 0x59, 0x83] = .done (.addGbEb .bl (.mem (.disp8 .bxDi 0x83))) [] ∧
    decode [0x03, 0x84, 0xEF, 0xBE] = .done (.addGwEw .ax (.mem (.disp16 .si 0xBEEF))) [] ∧
    decode [0x04, 0x84] = .done (.addAlIb 0x84) [] ∧
    decode [0x05, 0x05, 0x81] = .done (.addAxIw 0x8105) [] ∧
    decode [0x80, 0xC1, 0x86] = .done (.addEbIb (.reg .cl) 0x86) [] ∧
    decode [0x81, 0x04, 0x07, 0x81] = .done (.addEwIw (.mem (.ind .si)) 0x8107) [] ∧
    decode [0x83, 0x06, 0x34, 0x12, 0x88] = .done (.addEwIbs (.mem (.direct 0x1234)) 0x88) [] ∧
    decode [0x82, 0x42, 0x88, 0x89] = .done (.addEbIbAlias (.mem (.disp8 .bpSi 0x88)) 0x89) [] ∧
    decode [0x08, 0x9D, 0xEF, 0xBE] = .done (.orEbGb (.mem (.disp16 .di 0xBEEF)) .bl) [] ∧
    decode [0x09, 0xC2] = .done (.orEwGw (.reg .dx) .ax) [] ∧
    decode [0x0A, 0x2D] = .done (.orGbEb .ch (.mem (.ind .di))) [] ∧
    decode [0x0B, 0x16, 0x34, 0x12] = .done (.orGwEw .dx (.mem (.direct 0x1234))) [] ∧
    decode [0x0C, 0x8E] = .done (.orAlIb 0x8E) [] ∧
    decode [0x0D, 0x0F, 0x81] = .done (.orAxIw 0x810F) [] ∧
    decode [0x80, 0x4B, 0x8D, 0x90] = .done (.orEbIb (.mem (.disp8 .bpDi 0x8D)) 0x90) [] ∧
    decode [0x81, 0x8E, 0xEF, 0xBE, 0x11, 0x81] = .done (.orEwIw (.mem (.disp16 .bp 0xBEEF)) 0x8111) [] ∧
    decode [0x83, 0xCB, 0x92] = .done (.orEwIbs (.reg .bx) 0x92) [] ∧
    decode [0x82, 0x0B, 0x93] = .done (.orEbIbAlias (.mem (.ind .bpDi)) 0x93) [] :=
  ⟨rfl, rfl, rfl, rfl, rfl, rfl, rfl, rfl, rfl, rfl, rfl, rfl, rfl, rfl, rfl, rfl, rfl, rfl, rfl, rfl⟩

/-- From R205, R210, R215 to R221: the encodings of `adcEbGb` to `sbbEbIbAlias`. -/
theorem test_decode_01 :
    decode [0x10, 0x2E, 0x34, 0x12] = .done (.adcEbGb (.mem (.direct 0x1234)) .ch) [] ∧
    decode [0x11, 0x54, 0x92] = .done (.adcEwGw (.mem (.disp8 .si 0x92)) .dx) [] ∧
    decode [0x12, 0xBF, 0xEF, 0xBE] = .done (.adcGbEb .bh (.mem (.disp16 .bx 0xBEEF))) [] ∧
    decode [0x13, 0xE4] = .done (.adcGwEw .sp (.reg .sp)) [] ∧
    decode [0x14, 0x98] = .done (.adcAlIb 0x98) [] ∧
    decode [0x15, 0x19, 0x81] = .done (.adcAxIw 0x8119) [] ∧
    decode [0x80, 0x17, 0x9A] = .done (.adcEbIb (.mem (.ind .bx)) 0x9A) [] ∧
    decode [0x81, 0x16, 0x34, 0x12, 0x1B, 0x81] = .done (.adcEwIw (.mem (.direct 0x1234)) 0x811B) [] ∧
    decode [0x83, 0x55, 0x97, 0x9C] = .done (.adcEwIbs (.mem (.disp8 .di 0x97)) 0x9C) [] ∧
    decode [0x82, 0x90, 0xEF, 0xBE, 0x9D] = .done (.adcEbIbAlias (.mem (.disp16 .bxSi 0xBEEF)) 0x9D) [] ∧
    decode [0x18, 0xFD] = .done (.sbbEbGb (.reg .ch) .bh) [] ∧
    decode [0x19, 0x20] = .done (.sbbEwGw (.mem (.ind .bxSi)) .sp) [] ∧
    decode [0x1A, 0x0E, 0x34, 0x12] = .done (.sbbGbEb .cl (.mem (.direct 0x1234))) [] ∧
    decode [0x1B, 0x76, 0x9C] = .done (.sbbGwEw .si (.mem (.disp8 .bp 0x9C))) [] ∧
    decode [0x1C, 0xA2] = .done (.sbbAlIb 0xA2) [] ∧
    decode [0x1D, 0x23, 0x81] = .done (.sbbAxIw 0x8123) [] ∧
    decode [0x80, 0x99, 0xEF, 0xBE, 0xA4] = .done (.sbbEbIb (.mem (.disp16 .bxDi 0xBEEF)) 0xA4) [] ∧
    decode [0x81, 0xDE, 0x25, 0x81] = .done (.sbbEwIw (.reg .si) 0x8125) [] ∧
    decode [0x83, 0x19, 0xA6] = .done (.sbbEwIbs (.mem (.ind .bxDi)) 0xA6) [] ∧
    decode [0x82, 0x1E, 0x34, 0x12, 0xA7] = .done (.sbbEbIbAlias (.mem (.direct 0x1234)) 0xA7) [] :=
  ⟨rfl, rfl, rfl, rfl, rfl, rfl, rfl, rfl, rfl, rfl, rfl, rfl, rfl, rfl, rfl, rfl, rfl, rfl, rfl, rfl⟩

/-- From R205, R210, R215 to R221: the encodings of `andEbGb` to `subEbIbAlias`. -/
theorem test_decode_02 :
    decode [0x20, 0x4F, 0xA1] = .done (.andEbGb (.mem (.disp8 .bx 0xA1)) .cl) [] ∧
    decode [0x21, 0xB2, 0xEF, 0xBE] = .done (.andEwGw (.mem (.disp16 .bpSi 0xBEEF)) .si) [] ∧
    decode [0x22, 0xDF] = .done (.andGbEb .bl (.reg .bh)) [] ∧
    decode [0x23, 0x02] = .done (.andGwEw .ax (.mem (.ind .bpSi))) [] ∧
    decode [0x24, 0xAC] = .done (.andAlIb 0xAC) [] ∧
    decode [0x25, 0x2D, 0x81] = .done (.andAxIw 0x812D) [] ∧
    decode [0x80, 0x26, 0x34, 0x12, 0xAE] = .done (.andEbIb (.mem (.direct 0x1234)) 0xAE) [] ∧
    decode [0x81, 0x60, 0xA6, 0x2F, 0x81] = .done (.andEwIw (.mem (.disp8 .bxSi 0xA6)) 0x812F) [] ∧
    decode [0x83, 0xA3, 0xEF, 0xBE, 0xB0] = .done (.andEwIbs (.mem (.disp16 .bpDi 0xBEEF)) 0xB0) [] ∧
    decode [0x82, 0xE0, 0xB1] = .done (.andEbIbAlias (.reg .al) 0xB1) [] ∧
    decode [0x28, 0x1B] = .done (.subEbGb (.mem (.ind .bpDi)) .bl) [] ∧
    decode [0x29, 0x06, 0x34, 0x12] = .done (.subEwGw (.mem (.direct 0x1234)) .ax) [] ∧
    decode [0x2A, 0x69, 0xAB] = .done (.subGbEb .ch (.mem (.disp8 .bxDi 0xAB))) [] ∧
    decode [0x2B, 0x94, 0xEF, 0xBE] = .done (.subGwEw .dx (.mem (.disp16 .si 0xBEEF))) [] ∧
    decode [0x2C, 0xB6] = .done (.subAlIb 0xB6) [] ∧
    decode [0x2D, 0x37, 0x81] = .done (.subAxIw 0x8137) [] ∧
    decode [0x80, 0xE9, 0xB8] = .done (.subEbIb (.reg .cl) 0xB8) [] ∧
    decode [0x81, 0x2C, 0x39, 0x81] = .done (.subEwIw (.mem (.ind .si)) 0x8139) [] ∧
    decode [0x83, 0x2E, 0x34, 0x12, 0xBA] = .done (.subEwIbs (.mem (.direct 0x1234)) 0xBA) [] ∧
    decode [0x82, 0x6A, 0xB0, 0xBB] = .done (.subEbIbAlias (.mem (.disp8 .bpSi 0xB0)) 0xBB) [] :=
  ⟨rfl, rfl, rfl, rfl, rfl, rfl, rfl, rfl, rfl, rfl, rfl, rfl, rfl, rfl, rfl, rfl, rfl, rfl, rfl, rfl⟩

/-- From R205, R210, R215 to R221: the encodings of `xorEbGb` to `cmpEbIbAlias`. -/
theorem test_decode_03 :
    decode [0x30, 0xAD, 0xEF, 0xBE] = .done (.xorEbGb (.mem (.disp16 .di 0xBEEF)) .ch) [] ∧
    decode [0x31, 0xD2] = .done (.xorEwGw (.reg .dx) .dx) [] ∧
    decode [0x32, 0x3D] = .done (.xorGbEb .bh (.mem (.ind .di))) [] ∧
    decode [0x33, 0x26, 0x34, 0x12] = .done (.xorGwEw .sp (.mem (.direct 0x1234))) [] ∧
    decode [0x34, 0xC0] = .done (.xorAlIb 0xC0) [] ∧
    decode [0x35, 0x41, 0x81] = .done (.xorAxIw 0x8141) [] ∧
    decode [0x80, 0x73, 0xB5, 0xC2] = .done (.xorEbIb (.mem (.disp8 .bpDi 0xB5)) 0xC2) [] ∧
    decode [0x81, 0xB6, 0xEF, 0xBE, 0x43, 0x81] = .done (.xorEwIw (.mem (.disp16 .bp 0xBEEF)) 0x8143) [] ∧
    decode [0x83, 0xF3, 0xC4] = .done (.xorEwIbs (.reg .bx) 0xC4) [] ∧
    decode [0x82, 0x33, 0xC5] = .done (.xorEbIbAlias (.mem (.ind .bpDi)) 0xC5) [] ∧
    decode [0x38, 0x3E, 0x34, 0x12] = .done (.cmpEbGb (.mem (.direct 0x1234)) .bh) [] ∧
    decode [0x39, 0x64, 0xBA] = .done (.cmpEwGw (.mem (.disp8 .si 0xBA)) .sp) [] ∧
    decode [0x3A, 0x8F, 0xEF, 0xBE] = .done (.cmpGbEb .cl (.mem (.disp16 .bx 0xBEEF))) [] ∧
    decode [0x3B, 0xF4] = .done (.cmpGwEw .si (.reg .sp)) [] ∧
    decode [0x3C, 0xCA] = .done (.cmpAlIb 0xCA) [] ∧
    decode [0x3D, 0x4B, 0x81] = .done (.cmpAxIw 0x814B) [] ∧
    decode [0x80, 0x3F, 0xCC] = .done (.cmpEbIb (.mem (.ind .bx)) 0xCC) [] ∧
    decode [0x81, 0x3E, 0x34, 0x12, 0x4D, 0x81] = .done (.cmpEwIw (.mem (.direct 0x1234)) 0x814D) [] ∧
    decode [0x83, 0x7D, 0xBF, 0xCE] = .done (.cmpEwIbs (.mem (.disp8 .di 0xBF)) 0xCE) [] ∧
    decode [0x82, 0xB8, 0xEF, 0xBE, 0xCF] = .done (.cmpEbIbAlias (.mem (.disp16 .bxSi 0xBEEF)) 0xCF) [] :=
  ⟨rfl, rfl, rfl, rfl, rfl, rfl, rfl, rfl, rfl, rfl, rfl, rfl, rfl, rfl, rfl, rfl, rfl, rfl, rfl, rfl⟩

/-- From R205, R210, R215 to R221: the encodings of `pushSreg` to `movCsEw`. -/
theorem test_decode_04 :
    decode [0x06] = .done (.pushSreg .es) [] ∧
    decode [0x51] = .done (.pushR16 .cx) [] ∧
    decode [0xFF, 0xF5] = .done (.pushEw (.reg .bp)) [] ∧
    decode [0xFF, 0x38] = .done (.pushEwAlias (.mem (.ind .bxSi))) [] ∧
    decode [0x17] = .done (.popSreg .ss) [] ∧
    decode [0x5D] = .done (.popR16 .bp) [] ∧
    decode [0x8F, 0x06, 0x34, 0x12] = .done (.popEw (.mem (.direct 0x1234))) [] ∧
    decode [0x8F, 0x6E, 0xC4] = .done (.popEwAlias 5 (.mem (.disp8 .bp 0xC4))) [] ∧
    decode [0x86, 0x89, 0xEF, 0xBE] = .done (.xchgEbGb (.mem (.disp16 .bxDi 0xBEEF)) .cl) [] ∧
    decode [0x87, 0xF6] = .done (.xchgEwGw (.reg .si) .si) [] ∧
    decode [0x93] = .done (.xchgAxR16 .bx) [] ∧
    decode [0x88, 0x01] = .done (.movEbGb (.mem (.ind .bxDi)) .al) [] ∧
    decode [0x89, 0x2E, 0x34, 0x12] = .done (.movEwGw (.mem (.direct 0x1234)) .bp) [] ∧
    decode [0x8A, 0x57, 0xC9] = .done (.movGbEb .dl (.mem (.disp8 .bx 0xC9))) [] ∧
    decode [0x8B, 0xBA, 0xEF, 0xBE] = .done (.movGwEw .di (.mem (.disp16 .bpSi 0xBEEF))) [] ∧
    decode [0x8C, 0xD7] = .done (.movEwSw (.reg .di) .ss) [] ∧
    decode [0x8C, 0x3A] = .done (.movEwSwAlias (.mem (.ind .bpSi)) .ds) [] ∧
    decode [0x8E, 0x1E, 0x34, 0x12] = .done (.movSwEw .ds (.mem (.direct 0x1234))) [] ∧
    decode [0x8E, 0x70, 0xCE] = .done (.movSwEwAlias .ss (.mem (.disp8 .bxSi 0xCE))) [] ∧
    decode [0x8E, 0x6C] = .done (.movCsEw true 1 4) [] :=
  ⟨rfl, rfl, rfl, rfl, rfl, rfl, rfl, rfl, rfl, rfl, rfl, rfl, rfl, rfl, rfl, rfl, rfl, rfl, rfl, rfl⟩

/-- From R205, R210, R215 to R221: the encodings of `movAlOb` to `outIbAx`. -/
theorem test_decode_05 :
    decode [0xA0, 0x64, 0x81] = .done (.movAlOb 0x8164) [] ∧
    decode [0xA1, 0x65, 0x81] = .done (.movAxOw 0x8165) [] ∧
    decode [0xA2, 0x66, 0x81] = .done (.movObAl 0x8166) [] ∧
    decode [0xA3, 0x67, 0x81] = .done (.movOwAx 0x8167) [] ∧
    decode [0xB0, 0xE8] = .done (.movR8Ib .al 0xE8) [] ∧
    decode [0xB9, 0x69, 0x81] = .done (.movR16Iw .cx 0x8169) [] ∧
    decode [0xC6, 0x83, 0xEF, 0xBE, 0xEA] = .done (.movEbIb (.mem (.disp16 .bpDi 0xBEEF)) 0xEA) [] ∧
    decode [0xC7, 0xC0, 0x6B, 0x81] = .done (.movEwIw (.reg .ax) 0x816B) [] ∧
    decode [0xC6, 0x1B, 0x9A] = .done (.movEbIbAlias 3 (.mem (.ind .bpDi)) 0x9A) [] ∧
    decode [0xC7, 0x36, 0x34, 0x12, 0x9A, 0x7F] = .done (.movEwIwAlias 6 (.mem (.direct 0x1234)) 0x7F9A) [] ∧
    decode [0x8D, 0xB9, 0xEF, 0xBE] = .done (.lea .di (.disp16 .bxDi 0xBEEF)) [] ∧
    decode [0x8D, 0xD5] = .done (.leaReg .dx .bp) [] ∧
    decode [0xC4, 0x0C] = .done (.les .cx (.ind .si)) [] ∧
    decode [0xC4, 0xD5] = .done (.lesReg .dx .bp) [] ∧
    decode [0xC5, 0x1E, 0x34, 0x12] = .done (.lds .bx (.direct 0x1234)) [] ∧
    decode [0xC5, 0xD5] = .done (.ldsReg .dx .bp) [] ∧
    decode [0xE4, 0x84] = .done (.inAlIb 0x84) [] ∧
    decode [0xE5, 0x85] = .done (.inAxIb 0x85) [] ∧
    decode [0xE6, 0x86] = .done (.outIbAl 0x86) [] ∧
    decode [0xE7, 0x87] = .done (.outIbAx 0x87) [] :=
  ⟨rfl, rfl, rfl, rfl, rfl, rfl, rfl, rfl, rfl, rfl, rfl, rfl, rfl, rfl, rfl, rfl, rfl, rfl, rfl, rfl⟩

/-- From R205, R210, R215 to R221: the encodings of `incR16` to `aadBase`. -/
theorem test_decode_06 :
    decode [0x40] = .done (.incR16 .ax) [] ∧
    decode [0xFE, 0x04] = .done (.incEb (.mem (.ind .si))) [] ∧
    decode [0xFF, 0x06, 0x34, 0x12] = .done (.incEw (.mem (.direct 0x1234))) [] ∧
    decode [0x4B] = .done (.decR16 .bx) [] ∧
    decode [0xFE, 0x4A, 0xD8] = .done (.decEb (.mem (.disp8 .bpSi 0xD8))) [] ∧
    decode [0xFF, 0x8D, 0xEF, 0xBE] = .done (.decEw (.mem (.disp16 .di 0xBEEF))) [] ∧
    decode [0xF6, 0xD2] = .done (.notEb (.reg .dl)) [] ∧
    decode [0xF7, 0x15] = .done (.notEw (.mem (.ind .di))) [] ∧
    decode [0xF6, 0x1E, 0x34, 0x12] = .done (.negEb (.mem (.direct 0x1234))) [] ∧
    decode [0xF7, 0x5B, 0xDD] = .done (.negEw (.mem (.disp8 .bpDi 0xDD))) [] ∧
    decode [0xF6, 0xA6, 0xEF, 0xBE] = .done (.mulEb (.mem (.disp16 .bp 0xBEEF))) [] ∧
    decode [0xF7, 0xE3] = .done (.mulEw (.reg .bx)) [] ∧
    decode [0xF6, 0x2B] = .done (.imulEb (.mem (.ind .bpDi))) [] ∧
    decode [0xF7, 0x2E, 0x34, 0x12] = .done (.imulEw (.mem (.direct 0x1234))) [] ∧
    decode [0xF6, 0x74, 0xE2] = .done (.divEb (.mem (.disp8 .si 0xE2))) [] ∧
    decode [0xF7, 0xB7, 0xEF, 0xBE] = .done (.divEw (.mem (.disp16 .bx 0xBEEF))) [] ∧
    decode [0xF6, 0xFC] = .done (.idivEb (.reg .ah)) [] ∧
    decode [0xF7, 0x3F] = .done (.idivEw (.mem (.ind .bx))) [] ∧
    decode [0xD4, 0x10] = .done (.aamBase 0x10) [] ∧
    decode [0xD5, 0x10] = .done (.aadBase 0x10) [] :=
  ⟨rfl, rfl, rfl, rfl, rfl, rfl, rfl, rfl, rfl, rfl, rfl, rfl, rfl, rfl, rfl, rfl, rfl, rfl, rfl, rfl⟩

/-- From R205, R210, R215 to R221: the encodings of `testEbGb` to `rclEwCl`. -/
theorem test_decode_07 :
    decode [0x84, 0x2E, 0x34, 0x12] = .done (.testEbGb (.mem (.direct 0x1234)) .ch) [] ∧
    decode [0x85, 0x55, 0xE7] = .done (.testEwGw (.mem (.disp8 .di 0xE7)) .dx) [] ∧
    decode [0xA8, 0x9E] = .done (.testAlIb 0x9E) [] ∧
    decode [0xA9, 0x8F, 0x81] = .done (.testAxIw 0x818F) [] ∧
    decode [0xF6, 0x80, 0xEF, 0xBE, 0xA0] = .done (.testEbIb (.mem (.disp16 .bxSi 0xBEEF)) 0xA0) [] ∧
    decode [0xF7, 0xC5, 0x91, 0x81] = .done (.testEwIw (.reg .bp) 0x8191) [] ∧
    decode [0xF6, 0x08, 0xA2] = .done (.testEbIbAlias (.mem (.ind .bxSi)) 0xA2) [] ∧
    decode [0xF7, 0x0E, 0x34, 0x12, 0x93, 0x81] = .done (.testEwIwAlias (.mem (.direct 0x1234)) 0x8193) [] ∧
    decode [0xD0, 0x46, 0xEC] = .done (.rolEb1 (.mem (.disp8 .bp 0xEC))) [] ∧
    decode [0xD1, 0x81, 0xEF, 0xBE] = .done (.rolEw1 (.mem (.disp16 .bxDi 0xBEEF))) [] ∧
    decode [0xD2, 0xC6] = .done (.rolEbCl (.reg .dh)) [] ∧
    decode [0xD3, 0x01] = .done (.rolEwCl (.mem (.ind .bxDi))) [] ∧
    decode [0xD0, 0x0E, 0x34, 0x12] = .done (.rorEb1 (.mem (.direct 0x1234))) [] ∧
    decode [0xD1, 0x4F, 0xF1] = .done (.rorEw1 (.mem (.disp8 .bx 0xF1))) [] ∧
    decode [0xD2, 0x8A, 0xEF, 0xBE] = .done (.rorEbCl (.mem (.disp16 .bpSi 0xBEEF))) [] ∧
    decode [0xD3, 0xCF] = .done (.rorEwCl (.reg .di)) [] ∧
    decode [0xD0, 0x12] = .done (.rclEb1 (.mem (.ind .bpSi))) [] ∧
    decode [0xD1, 0x16, 0x34, 0x12] = .done (.rclEw1 (.mem (.direct 0x1234))) [] ∧
    decode [0xD2, 0x50, 0xF6] = .done (.rclEbCl (.mem (.disp8 .bxSi 0xF6))) [] ∧
    decode [0xD3, 0x93, 0xEF, 0xBE] = .done (.rclEwCl (.mem (.disp16 .bpDi 0xBEEF))) [] :=
  ⟨rfl, rfl, rfl, rfl, rfl, rfl, rfl, rfl, rfl, rfl, rfl, rfl, rfl, rfl, rfl, rfl, rfl, rfl, rfl, rfl⟩

/-- From R205, R210, R215 to R221: the encodings of `rcrEb1` to `jb`. -/
theorem test_decode_08 :
    decode [0xD0, 0xD8] = .done (.rcrEb1 (.reg .al)) [] ∧
    decode [0xD1, 0x1B] = .done (.rcrEw1 (.mem (.ind .bpDi))) [] ∧
    decode [0xD2, 0x1E, 0x34, 0x12] = .done (.rcrEbCl (.mem (.direct 0x1234))) [] ∧
    decode [0xD3, 0x59, 0xFB] = .done (.rcrEwCl (.mem (.disp8 .bxDi 0xFB))) [] ∧
    decode [0xD0, 0xA4, 0xEF, 0xBE] = .done (.shlEb1 (.mem (.disp16 .si 0xBEEF))) [] ∧
    decode [0xD1, 0xE1] = .done (.shlEw1 (.reg .cx)) [] ∧
    decode [0xD2, 0x24] = .done (.shlEbCl (.mem (.ind .si))) [] ∧
    decode [0xD3, 0x26, 0x34, 0x12] = .done (.shlEwCl (.mem (.direct 0x1234))) [] ∧
    decode [0xD0, 0x6A, 0x80] = .done (.shrEb1 (.mem (.disp8 .bpSi 0x80))) [] ∧
    decode [0xD1, 0xAD, 0xEF, 0xBE] = .done (.shrEw1 (.mem (.disp16 .di 0xBEEF))) [] ∧
    decode [0xD2, 0xEA] = .done (.shrEbCl (.reg .dl)) [] ∧
    decode [0xD3, 0x2D] = .done (.shrEwCl (.mem (.ind .di))) [] ∧
    decode [0xD0, 0x3E, 0x34, 0x12] = .done (.sarEb1 (.mem (.direct 0x1234))) [] ∧
    decode [0xD1, 0x7B, 0x85] = .done (.sarEw1 (.mem (.disp8 .bpDi 0x85))) [] ∧
    decode [0xD2, 0xBE, 0xEF, 0xBE] = .done (.sarEbCl (.mem (.disp16 .bp 0xBEEF))) [] ∧
    decode [0xD3, 0xFB] = .done (.sarEwCl (.reg .bx)) [] ∧
    decode [0xD3, 0xB1] = .done (.shiftUndoc6 true true 2 1) [] ∧
    decode [0x70, 0xC1] = .done (.jo 0xC1) [] ∧
    decode [0x71, 0xC2] = .done (.jno 0xC2) [] ∧
    decode [0x72, 0xC3] = .done (.jb 0xC3) [] :=
  ⟨rfl, rfl, rfl, rfl, rfl, rfl, rfl, rfl, rfl, rfl, rfl, rfl, rfl, rfl, rfl, rfl, rfl, rfl, rfl, rfl⟩

/-- From R205, R210, R215 to R221: the encodings of `jnb` to `jbeAlias`. -/
theorem test_decode_09 :
    decode [0x73, 0xC4] = .done (.jnb 0xC4) [] ∧
    decode [0x74, 0xC5] = .done (.jz 0xC5) [] ∧
    decode [0x75, 0xC6] = .done (.jnz 0xC6) [] ∧
    decode [0x76, 0xC7] = .done (.jbe 0xC7) [] ∧
    decode [0x77, 0xC8] = .done (.ja 0xC8) [] ∧
    decode [0x78, 0xC9] = .done (.js 0xC9) [] ∧
    decode [0x79, 0xCA] = .done (.jns 0xCA) [] ∧
    decode [0x7A, 0xCB] = .done (.jp 0xCB) [] ∧
    decode [0x7B, 0xCC] = .done (.jnp 0xCC) [] ∧
    decode [0x7C, 0xCD] = .done (.jl 0xCD) [] ∧
    decode [0x7D, 0xCE] = .done (.jge 0xCE) [] ∧
    decode [0x7E, 0xCF] = .done (.jle 0xCF) [] ∧
    decode [0x7F, 0xD0] = .done (.jg 0xD0) [] ∧
    decode [0x60, 0xD1] = .done (.joAlias 0xD1) [] ∧
    decode [0x61, 0xD2] = .done (.jnoAlias 0xD2) [] ∧
    decode [0x62, 0xD3] = .done (.jbAlias 0xD3) [] ∧
    decode [0x63, 0xD4] = .done (.jnbAlias 0xD4) [] ∧
    decode [0x64, 0xD5] = .done (.jzAlias 0xD5) [] ∧
    decode [0x65, 0xD6] = .done (.jnzAlias 0xD6) [] ∧
    decode [0x66, 0xD7] = .done (.jbeAlias 0xD7) [] :=
  ⟨rfl, rfl, rfl, rfl, rfl, rfl, rfl, rfl, rfl, rfl, rfl, rfl, rfl, rfl, rfl, rfl, rfl, rfl, rfl, rfl⟩

/-- From R205, R210, R215 to R221: the encodings of `jaAlias` to `callFarReg`. -/
theorem test_decode_10 :
    decode [0x67, 0xD8] = .done (.jaAlias 0xD8) [] ∧
    decode [0x68, 0xD9] = .done (.jsAlias 0xD9) [] ∧
    decode [0x69, 0xDA] = .done (.jnsAlias 0xDA) [] ∧
    decode [0x6A, 0xDB] = .done (.jpAlias 0xDB) [] ∧
    decode [0x6B, 0xDC] = .done (.jnpAlias 0xDC) [] ∧
    decode [0x6C, 0xDD] = .done (.jlAlias 0xDD) [] ∧
    decode [0x6D, 0xDE] = .done (.jgeAlias 0xDE) [] ∧
    decode [0x6E, 0xDF] = .done (.jleAlias 0xDF) [] ∧
    decode [0x6F, 0xE0] = .done (.jgAlias 0xE0) [] ∧
    decode [0xEB, 0xE1] = .done (.jmpJb 0xE1) [] ∧
    decode [0xE9, 0xD2, 0x81] = .done (.jmpJw 0x81D2) [] ∧
    decode [0xFF, 0x23] = .done (.jmpEw (.mem (.ind .bpDi))) [] ∧
    decode [0xEA, 0xD4, 0x81, 0xD4, 0x82] = .done (.jmpAp 0x81D4 0x82D4) [] ∧
    decode [0xFF, 0x2E, 0x34, 0x12] = .done (.jmpMp (.direct 0x1234)) [] ∧
    decode [0xFF, 0xEB] = .done (.jmpFarReg .bx) [] ∧
    decode [0xE8, 0xD7, 0x81] = .done (.callJw 0x81D7) [] ∧
    decode [0xFF, 0x54, 0x8A] = .done (.callEw (.mem (.disp8 .si 0x8A))) [] ∧
    decode [0x9A, 0xD9, 0x81, 0xD9, 0x82] = .done (.callAp 0x81D9 0x82D9) [] ∧
    decode [0xFF, 0x9F, 0xEF, 0xBE] = .done (.callMp (.disp16 .bx 0xBEEF)) [] ∧
    decode [0xFF, 0xDE] = .done (.callFarReg .si) [] :=
  ⟨rfl, rfl, rfl, rfl, rfl, rfl, rfl, rfl, rfl, rfl, rfl, rfl, rfl, rfl, rfl, rfl, rfl, rfl, rfl, rfl⟩

/-- From R205, R210, R215 to R221: the encodings of `retIw` to `dsPrefix`. -/
theorem test_decode_11 :
    decode [0xC2, 0xDC, 0x81] = .done (.retIw 0x81DC) [] ∧
    decode [0xC0, 0xDD, 0x81] = .done (.retIwAlias 0x81DD) [] ∧
    decode [0xCA, 0xDE, 0x81] = .done (.retfIw 0x81DE) [] ∧
    decode [0xC8, 0xDF, 0x81] = .done (.retfIwAlias 0x81DF) [] ∧
    decode [0xE0, 0x80] = .done (.loopne 0x80) [] ∧
    decode [0xE1, 0x81] = .done (.loope 0x81) [] ∧
    decode [0xE2, 0x82] = .done (.loop 0x82) [] ∧
    decode [0xE3, 0x83] = .done (.jcxz 0x83) [] ∧
    decode [0xCD, 0x84] = .done (.int 0x84) [] ∧
    decode [0xDB, 0xF4] = .done (.esc 3 6 (.reg .sp)) [] ∧
    decode [0xFE, 0x52] = .done (.feUndoc2 1 2) [] ∧
    decode [0xFE, 0x5A] = .done (.feUndoc3 1 2) [] ∧
    decode [0xFE, 0x62] = .done (.feUndoc4 1 2) [] ∧
    decode [0xFE, 0x6A] = .done (.feUndoc5 1 2) [] ∧
    decode [0xFE, 0x72] = .done (.feUndoc6 1 2) [] ∧
    decode [0xFE, 0x7A] = .done (.feUndoc7 1 2) [] ∧
    decode [0x26] = .done .esPrefix [] ∧
    decode [0x2E] = .done .csPrefix [] ∧
    decode [0x36] = .done .ssPrefix [] ∧
    decode [0x3E] = .done .dsPrefix [] :=
  ⟨rfl, rfl, rfl, rfl, rfl, rfl, rfl, rfl, rfl, rfl, rfl, rfl, rfl, rfl, rfl, rfl, rfl, rfl, rfl, rfl⟩

/-- From R205, R210, R215 to R221: the encodings of `lock` to `aad`. -/
theorem test_decode_12 :
    decode [0xF0] = .done .lock [] ∧
    decode [0xF1] = .done .lockAlias [] ∧
    decode [0xF2] = .done .repne [] ∧
    decode [0xF3] = .done .repe [] ∧
    decode [0x0F] = .done .popCs [] ∧
    decode [0xD7] = .done .xlat [] ∧
    decode [0x9C] = .done .pushf [] ∧
    decode [0x9D] = .done .popf [] ∧
    decode [0x9E] = .done .sahf [] ∧
    decode [0x9F] = .done .lahf [] ∧
    decode [0xEC] = .done .inAlDx [] ∧
    decode [0xED] = .done .inAxDx [] ∧
    decode [0xEE] = .done .outDxAl [] ∧
    decode [0xEF] = .done .outDxAx [] ∧
    decode [0x27] = .done .daa [] ∧
    decode [0x2F] = .done .das [] ∧
    decode [0x37] = .done .aaa [] ∧
    decode [0x3F] = .done .aas [] ∧
    decode [0xD4, 0x0A] = .done .aam [] ∧
    decode [0xD5, 0x0A] = .done .aad [] :=
  ⟨rfl, rfl, rfl, rfl, rfl, rfl, rfl, rfl, rfl, rfl, rfl, rfl, rfl, rfl, rfl, rfl, rfl, rfl, rfl, rfl⟩

/-- From R205, R210, R215 to R221: the encodings of `cbw` to `clc`. -/
theorem test_decode_13 :
    decode [0x98] = .done .cbw [] ∧
    decode [0x99] = .done .cwd [] ∧
    decode [0xA4] = .done .movsb [] ∧
    decode [0xA5] = .done .movsw [] ∧
    decode [0xA6] = .done .cmpsb [] ∧
    decode [0xA7] = .done .cmpsw [] ∧
    decode [0xAA] = .done .stosb [] ∧
    decode [0xAB] = .done .stosw [] ∧
    decode [0xAC] = .done .lodsb [] ∧
    decode [0xAD] = .done .lodsw [] ∧
    decode [0xAE] = .done .scasb [] ∧
    decode [0xAF] = .done .scasw [] ∧
    decode [0xC3] = .done .ret [] ∧
    decode [0xC1] = .done .retAlias [] ∧
    decode [0xCB] = .done .retf [] ∧
    decode [0xC9] = .done .retfAlias [] ∧
    decode [0xCC] = .done .int3 [] ∧
    decode [0xCE] = .done .into [] ∧
    decode [0xCF] = .done .iret [] ∧
    decode [0xF8] = .done .clc [] :=
  ⟨rfl, rfl, rfl, rfl, rfl, rfl, rfl, rfl, rfl, rfl, rfl, rfl, rfl, rfl, rfl, rfl, rfl, rfl, rfl, rfl⟩

/-- From R205, R210, R215 to R221: the encodings of `stc` to `salc`. -/
theorem test_decode_14 :
    decode [0xF9] = .done .stc [] ∧
    decode [0xF5] = .done .cmc [] ∧
    decode [0xFC] = .done .cld [] ∧
    decode [0xFD] = .done .std [] ∧
    decode [0xFA] = .done .cli [] ∧
    decode [0xFB] = .done .sti [] ∧
    decode [0xF4] = .done .hlt [] ∧
    decode [0x9B] = .done .wait [] ∧
    decode [0x90] = .done .nop [] ∧
    decode [0xD6] = .done .salc [] :=
  ⟨rfl, rfl, rfl, rfl, rfl, rfl, rfl, rfl, rfl, rfl⟩

/-- R210, R215, R216: every code of the constructors that stand for several opcode bytes. -/
theorem test_decode_codes :
    [0x06, 0x0E, 0x16, 0x1E].map (fun b => decode [b]) =
      [SReg.es, .cs, .ss, .ds].map (fun r => .done (.pushSreg r) []) ∧
    [0x07, 0x17, 0x1F].map (fun b => decode [b]) = [SReg.es, .ss, .ds].map (fun r => .done (.popSreg r) []) ∧
    [0x50, 0x51, 0x52, 0x53, 0x54, 0x55, 0x56, 0x57].map (fun b => decode [b]) =
      [Reg16.ax, .cx, .dx, .bx, .sp, .bp, .si, .di].map (fun r => .done (.pushR16 r) []) ∧
    [0x91, 0x92, 0x93, 0x94, 0x95, 0x96, 0x97].map (fun b => decode [b]) =
      [Reg16.cx, .dx, .bx, .sp, .bp, .si, .di].map (fun r => .done (.xchgAxR16 r) []) ∧
    [0xB0, 0xB1, 0xB2, 0xB3, 0xB4, 0xB5, 0xB6, 0xB7].map (fun b => decode [b, 0x5A]) =
      [Reg8.al, .cl, .dl, .bl, .ah, .ch, .dh, .bh].map (fun r => .done (.movR8Ib r 0x5A) []) ∧
    [0xE0, 0xE8, 0xF0, 0xF8].map (fun b => decode [0x8C, b]) =
      [SReg.es, .cs, .ss, .ds].map (fun r => .done (.movEwSwAlias (.reg .ax) r) []) ∧
    [0xE0, 0xF0, 0xF8].map (fun b => decode [0x8E, b]) =
      [SReg.es, .ss, .ds].map (fun r => .done (.movSwEwAlias r (.reg .ax)) []) ∧
    [0xC0, 0xD0, 0xD8].map (fun b => decode [0x8E, b]) =
      [SReg.es, .ss, .ds].map (fun r => .done (.movSwEw r (.reg .ax)) []) :=
  ⟨rfl, rfl, rfl, rfl, rfl, rfl, rfl, rfl⟩


/-! ### Worked vectors of spec/95_test_vectors.md -/

/-- 2.1: ADD FF, 01 and ADC FF, 01 with CF = 1 (bytes). -/
theorem test_add_byte :
    after (exec (.addAlIb 0x01) (prepared (fun c => { c with ax := 0x00FF }) [])) arith =
      some (0x0000, 0, [false, false, true, true, true, true]) := by decide

theorem test_adc_byte :
    after (exec (.adcAlIb 0x01) (prepared (fun c => { c with ax := 0x00FF, flags.cf := true }) [])) arith =
      some (0x0001, 0, [false, false, false, true, false, true]) := by decide

/-- 2.1: `83 C0 FF` with AX = 0001. -/
theorem test_add_sign_extended :
    after (exec (.addEwIbs (.reg .ax) 0xFF) (prepared (fun c => { c with ax := 0x0001 }) [])) arith =
      some (0x0000, 0, [false, false, true, true, true, true]) := by decide

/-- 2.1: ADD 7FFF, 1 (word): PF is of the low byte. -/
theorem test_add_word :
    after (exec (.addAxIw 0x0001) (prepared (fun c => { c with ax := 0x7FFF }) [])) arith =
      some (0x8000, 0, [true, true, false, true, true, false]) := by decide

/-- 2.2: SUB 7F, FF. -/
theorem test_sub_byte :
    after (exec (.subAlIb 0xFF) (prepared (fun c => { c with ax := 0x007F }) [])) arith =
      some (0x0080, 0, [true, true, false, false, false, true]) := by decide

/-- 2.2: SBB 00, FF with CF = 1. -/
theorem test_sbb_byte :
    after (exec (.sbbAlIb 0xFF) (prepared (fun c => { c with flags.cf := true }) [])) arith =
      some (0x0000, 0, [false, false, true, true, true, true]) := by decide

/-- 2.2: CMP 05, 07 leaves AL. -/
theorem test_cmp_byte :
    after (exec (.cmpAlIb 0x07) (prepared (fun c => { c with ax := 0x0005 }) [])) arith =
      some (0x0005, 0, [false, true, false, true, false, true]) := by decide

/-- 2.2: NEG 80 and NEG 8000. -/
theorem test_neg :
    after (exec (.negEb (.reg .al)) (prepared (fun c => { c with ax := 0x0080 }) [])) arith =
      some (0x0080, 0, [true, true, false, false, false, true]) ∧
    after (exec (.negEw (.reg .ax)) (prepared (fun c => { c with ax := 0x8000 }) [])) arith =
      some (0x8000, 0, [true, true, false, false, true, true]) := by decide

/-- 2.3: INC AX and DEC byte 80 keep CF. -/
theorem test_inc_dec :
    after (exec (.incR16 .ax) (prepared (fun c => { c with ax := 0x7FFF, flags.cf := true }) [])) arith =
      some (0x8000, 0, [true, true, false, true, true, true]) ∧
    after (exec (.decEb (.reg .al)) (prepared (fun c => { c with ax := 0x0080, flags.cf := true }) [])) arith =
      some (0x007F, 0, [true, false, false, true, false, true]) := by decide

/-- 2.4: MUL of words FFFF and FFFF, and IMUL of bytes 40 and 02: the product, OF and CF. -/
theorem test_mul_imul :
    after (exec (.mulEw (.reg .bx)) (prepared (fun c => { c with ax := 0xFFFF, bx := 0xFFFF }) [])) product =
      some (0x0001, 0xFFFE, true, true) ∧
    after (exec (.imulEb (.reg .bl)) (prepared (fun c => { c with ax := 0x0040, bx := 0x0002 }) [])) product =
      some (0x0080, 0, true, true) := by decide

/-- 2.5: IDIV FFF9 by 02 truncates toward zero; DIV of 0001:0000 by 0002. -/
theorem test_div_idiv :
    after (exec (.idivEb (.reg .bl)) (prepared (fun c => { c with ax := 0xFFF9, bx := 0x0002 }) []))
      (fun t => t.cpu.ax) = some 0xFFFD ∧
    after (exec (.divEw (.reg .bx)) (prepared (fun c => { c with dx := 0x0001, bx := 0x0002 }) []))
      (fun t => (t.cpu.ax, t.cpu.dx)) = some (0x8000, 0x0000) := by decide

/-- 2.5, X12: IDIV FF80 by 01 is the divide error: vector 0, AX kept, the offset after the IDIV saved. -/
theorem test_idiv_error :
    after (exec (.idivEb (.reg .bl)) (prepared (fun c =>
      { c with ax := 0xFF80, bx := 0x0001, ip := 0x0013, sp := 0x0100, ss := 0x0300 })
        [(0, 0x50), (3, 0x02)]))
      (fun t => (t.cpu.ax, t.cpu.ip, t.cpu.cs, memRead t.mem 0x030FA)) =
      some (0xFF80, 0x0050, 0x0200, 0x13) := by decide

/-- 2.6: DAA of AE and DAS of 9A: AL, SF, ZF, AF, PF and CF. -/
theorem test_daa_das :
    after (exec .daa (prepared (fun c => { c with ax := 0x00AE }) [])) adjusted =
      some (0x0014, [false, false, true, true, true]) ∧
    after (exec .das (prepared (fun c => { c with ax := 0x009A }) [])) adjusted =
      some (0x0034, [false, false, true, false, true]) := by decide

/-- 2.6: AAA of 00FF and AAS of 0000 with AF = 1. -/
theorem test_aaa_aas :
    after (exec .aaa (prepared (fun c => { c with ax := 0x00FF }) []))
      (fun t => (t.cpu.ax, t.cpu.flags.af, t.cpu.flags.cf)) = some (0x0105, true, true) ∧
    after (exec .aas (prepared (fun c => { c with flags.af := true }) []))
      (fun t => (t.cpu.ax, t.cpu.flags.af, t.cpu.flags.cf)) = some (0xFF0A, true, true) := by decide

/-- 2.6: AAM of 3F and AAD of 0909: AX, SF, ZF and PF. -/
theorem test_aam_aad :
    after (exec .aam (prepared (fun c => { c with ax := 0x003F }) []))
      (fun t => (t.cpu.ax, t.cpu.flags.sf, t.cpu.flags.zf, t.cpu.flags.pf)) = some (0x0603, false, false, true) ∧
    after (exec .aad (prepared (fun c => { c with ax := 0x0909 }) []))
      (fun t => (t.cpu.ax, t.cpu.flags.sf, t.cpu.flags.zf, t.cpu.flags.pf)) =
      some (0x0063, false, false, true) := by decide

/-- 2.6: CBW of 80 and CWD of 8000. -/
theorem test_cbw_cwd :
    after (exec .cbw (prepared (fun c => { c with ax := 0x0080 }) [])) (fun t => t.cpu.ax) = some 0xFF80 ∧
    after (exec .cwd (prepared (fun c => { c with ax := 0x8000 }) [])) (fun t => t.cpu.dx) = some 0xFFFF := by
  decide

/-- 2.7: AND F0, 0F; OR 80, 01; XOR AA, FF; TEST 80, 80: AX, SF, ZF, PF, OF and CF. -/
theorem test_logic :
    after (exec (.andAlIb 0x0F) (prepared (fun c => { c with ax := 0x00F0, flags.cf := true }) [])) logical =
      some (0x0000, [false, true, true, false, false]) ∧
    after (exec (.orAlIb 0x01) (prepared (fun c => { c with ax := 0x0080 }) [])) logical =
      some (0x0081, [true, false, true, false, false]) ∧
    after (exec (.xorAlIb 0xFF) (prepared (fun c => { c with ax := 0x00AA }) [])) logical =
      some (0x0055, [false, false, true, false, false]) ∧
    after (exec (.testAlIb 0x80) (prepared (fun c => { c with ax := 0x0080 }) [])) logical =
      some (0x0080, [true, false, false, false, false]) := by decide

/-- 2.7: NOT 00FF (word). -/
theorem test_not :
    after (exec (.notEw (.reg .ax)) (prepared (fun c => { c with ax := 0x00FF }) [])) (fun t => t.cpu.ax) =
      some 0xFF00 := by decide

/-- 2.8: ROL 81 by 9, ROR 01 by 1, RCL 80 by 9 and RCR 0001 by 17 with CF = 0: the result and CF. -/
theorem test_rotates :
    after (exec (.rolEbCl (.reg .al)) (prepared (fun c => { c with ax := 0x0081, cx := 9 }) [])) carried =
      some (0x0003, true) ∧
    after (exec (.rorEb1 (.reg .al)) (prepared (fun c => { c with ax := 0x0001 }) [])) carried =
      some (0x0080, true) ∧
    after (exec (.rclEbCl (.reg .al)) (prepared (fun c => { c with ax := 0x0080, cx := 9 }) [])) carried =
      some (0x0080, false) ∧
    after (exec (.rcrEwCl (.reg .ax)) (prepared (fun c => { c with ax := 0x0001, cx := 17 }) [])) carried =
      some (0x0001, false) := by decide

/-- 2.8: SHL FF by 9, SHR 80 by 8, SAR 80 by 10: the result and CF. -/
theorem test_shifts :
    after (exec (.shlEbCl (.reg .al)) (prepared (fun c => { c with ax := 0x00FF, cx := 9 }) [])) carried =
      some (0x0000, false) ∧
    after (exec (.shrEbCl (.reg .al)) (prepared (fun c => { c with ax := 0x0080, cx := 8 }) [])) carried =
      some (0x0000, true) ∧
    after (exec (.sarEbCl (.reg .al)) (prepared (fun c => { c with ax := 0x0080, cx := 10 }) [])) carried =
      some (0x00FF, true) := by decide

/-- 2.8: SHL 40 by 1 sets OF; SAR 81 by 1 clears it. -/
theorem test_shift_overflow :
    after (exec (.shlEb1 (.reg .al)) (prepared (fun c => { c with ax := 0x0040 }) []))
      (fun t => (t.cpu.ax, t.cpu.flags.ovf, t.cpu.flags.sf)) = some (0x0080, true, true) ∧
    after (exec (.sarEb1 (.reg .al)) (prepared (fun c => { c with ax := 0x0081 }) []))
      (fun t => (t.cpu.ax, t.cpu.flags.ovf, t.cpu.flags.cf)) = some (0x00C0, false, true) := by decide

/-- R15, R510, R67: a Stop() in the second tick of the write of SHL [0000],1 leaves the new CF, the old byte, and
the position after one access, which read 81. -/
theorem test_stop_in_shift :
    after (exec (.shlEb1 (.mem (.direct 0))) (beginWork (.unit (.shlEb1 (.mem (.direct 0))))
      { withQueue [1, 2, 3, 4, 5, 6] (prepared id [(0, 0x81)]) with
        env := ⟨List.replicate 5 ⟨false, false, false, false, true, [], []⟩ ++
          [⟨false, true, false, false, true, [], []⟩], true, 0⟩ }))
      (fun t => (t.cpu.flags.cf, memRead t.mem 0, t.progress.map Progress.delivered, t.stopped)) =
      some (true, 0x81, some [0x81], true) := by decide

/-- R161: a byte that the HOLD requester writes on the bus it holds is stored although the CPU is stopped. -/
theorem test_hold_while_stopped :
    (let s : State := { prepared id [] with stopped := true, biu := { Biu.reset with bus := .held, hlda := true } }
     let t := tick ⟨false, false, false, true, true, [], [.writeMemory 0x500 0x42]⟩ s
     (memRead t.mem 0x500, t.biu.hlda)) = (0x42, true) := by decide

/-- M2: MOV AX,[BP-2] with SS = 2000 and BP = 0010. -/
theorem test_mov_bp :
    after (exec (.movGwEw .ax (.mem (.disp8 .bp 0xFE))) (prepared (fun c =>
      { c with ss := 0x2000, bp := 0x0010 }) [(0x2000E, 0x34), (0x2000F, 0x12)]))
      (fun t => t.cpu.ax) = some 0x1234 := by decide

/-- M5: MOV [FFFF],AX with DS = 1000: the high byte wraps within the segment. -/
theorem test_mov_wraps :
    after (exec (.movOwAx 0xFFFF) (prepared (fun c => { c with ds := 0x1000, ax := 0xABCD }) []))
      (fun t => t.mem) = some [(0x10000, 0xAB), (0x1FFFF, 0xCD)] := by decide

/-- M6: MOV AL,[0010] with DS = FFFF reads physical address 0. -/
theorem test_mov_physical_wrap :
    after (exec (.movAlOb 0x0010) (prepared (fun c => { c with ds := 0xFFFF }) [(0, 0x77)]))
      (fun t => t.cpu.ax) = some 0x0077 := by decide

/-- M9: PUSH SP stores the decremented value. -/
theorem test_push_sp :
    after (exec (.pushR16 .sp) (prepared (fun c => { c with sp := 0x0100, ss := 0x0300 }) []))
      (fun t => (t.cpu.sp, t.mem)) = some (0x00FE, [(0x030FE, 0xFE)]) := by decide

/-- R304: POP SP leaves the word popped. -/
theorem test_pop_sp :
    after (exec (.popR16 .sp) (prepared (fun c => { c with sp := 0x0100 }) [(0x100, 0x34), (0x101, 0x12)]))
      (fun t => t.cpu.sp) = some 0x1234 := by decide

/-- M10, M11, M12: XCHG AX,BX; XLAT; LEA AX,[BX+SI+5]. -/
theorem test_xchg_xlat_lea :
    after (exec (.xchgAxR16 .bx) (prepared (fun c => { c with ax := 0x1111, bx := 0x2222 }) []))
      (fun t => (t.cpu.ax, t.cpu.bx)) = some (0x2222, 0x1111) ∧
    after (exec .xlat (prepared (fun c => { c with ax := 0x0005, bx := 0x0100 }) [(0x0105, 0x7A)]))
      (fun t => t.cpu.ax) = some 0x007A ∧
    after (exec (.lea .ax (.disp8 .bxSi 0x05)) (prepared (fun c => { c with bx := 0x1000, si := 0x0020 }) []))
      (fun t => t.cpu.ax) = some 0x1025 := by decide

/-- M13: LDS SI,[0010]. -/
theorem test_lds :
    after (exec (.lds .si (.direct 0x0010)) (prepared id [(0x11, 0x01), (0x13, 0x20)]))
      (fun t => (t.cpu.si, t.cpu.ds)) = some (0x0100, 0x2000) := by decide

/-- M14, M15: LAHF and SAHF. -/
theorem test_lahf_sahf :
    after (exec .lahf (prepared (fun c => { c with flags.cf := true, flags.zf := true }) []))
      (fun t => t.cpu.ax) = some 0x4300 ∧
    after (exec .sahf (prepared (fun c => { c with flags := ⟨true, true, true, true, true, true, true, true, true⟩ }) []))
      (fun t => t.cpu.flags) = some ⟨false, false, false, false, false, true, true, true, true⟩ := by decide

/-- M16, M17: PUSHF and POPF. -/
theorem test_pushf_popf :
    after (exec .pushf (prepared (fun c => { c with sp := 0x0100 }) []))
      (fun t => t.mem) = some [(0xFE, 0x02), (0xFF, 0xF0)] ∧
    after (exec .popf (prepared (fun c => { c with sp := 0x0100, flags.cf := true }) [(0x101, 0x01)]))
      (fun t => t.cpu.flags) = some ⟨false, false, false, false, false, true, false, false, false⟩ := by decide

/-- M18: MOV SS,AX sets the shadow. -/
theorem test_mov_ss :
    after (exec (.movSwEw .ss (.reg .ax)) (prepared (fun c => { c with ax := 0x2000 }) []))
      (fun t => (t.cpu.ss, t.eu.shadow)) = some (0x2000, true) := by decide

/-- M19: IN AL,21 reads the mask of an operational controller. -/
theorem test_in :
    after (exec (.inAlIb 0x21) (withPic (fun p => { p with init := .operational, imr := 0xFD }) (prepared id [])))
      (fun t => t.cpu.ax) = some 0x00FD := by decide

/-- M20: OUT DX,AX gives AL to port DX, then AH to the next. -/
theorem test_out :
    after (exec .outDxAx (withPorts [⟨0, 0x1000, .device⟩] (prepared (fun c =>
      { c with dx := 0x00FF, ax := 0x1234 }) [])))
      (fun t => t.deliveries) = some [⟨.io, 0x00FF, 0x34⟩, ⟨.io, 0x0100, 0x12⟩] := by decide

/-- S2: MOVSW with DF = 1. -/
theorem test_movsw :
    after (exec .movsw (prepared (fun c =>
      { c with ds := 0x1000, es := 0x1000, si := 0x0200, di := 0x0300, flags.df := true })
        [(0x10200, 0x34), (0x10201, 0x12)]))
      (fun t => (t.cpu.si, t.cpu.di, memRead t.mem 0x10300, memRead t.mem 0x10301)) =
      some (0x01FE, 0x02FE, 0x34, 0x12) := by decide

/-- S8: SS: MOVSB overrides the source segment alone. -/
theorem test_movsb_override :
    after (exec .movsb (withEu (fun e => { e with segOvr := some .ss }) (prepared (fun c =>
      { c with ds := 0x1000, es := 0x2000, ss := 0x3000 }) [(0x30000, 0x41)])))
      (fun t => memRead t.mem 0x20000) = some 0x41 := by decide

/-- S4, its second element: REPE CMPSB of 42 and 43 with CX = 1 ends with the flags of the difference. -/
theorem test_repe_cmpsb :
    after (exec .cmpsb (withEu (fun e => { e with rep := .repe }) (prepared (fun c =>
      { c with cx := 1, si := 0x11, di := 0x21 }) [(0x11, 0x42), (0x21, 0x43)])))
      (fun t => ([t.cpu.cx, t.cpu.si, t.cpu.di], (arith t).2.2)) =
      some ([0, 0x12, 0x22], [false, true, false, true, true, true]) := by decide

/-- S5: REPNE SCASB stops at the match. -/
theorem test_repne_scasb :
    after (exec .scasb (withEu (fun e => { e with rep := .repne }) (prepared (fun c =>
      { c with cx := 5, di := 0x20 }) [(0x20, 0x41)])))
      (fun t => (t.cpu.cx, t.cpu.di, t.cpu.flags.zf)) = some (3, 0x22, true) := by decide

/-- S6, S7: LODSB with DF = 1 and REP STOSW. -/
theorem test_lodsb_stosw :
    after (exec .lodsb (prepared (fun c => { c with si := 0x30, flags.df := true }) [(0x30, 0x7F)]))
      (fun t => (t.cpu.ax, t.cpu.si)) = some (0x007F, 0x2F) ∧
    after (exec .stosw (withEu (fun e => { e with rep := .repe }) (prepared (fun c =>
      { c with cx := 2, di := 0x10, ax := 0xABCD }) [])))
      (fun t => (t.cpu.cx, t.cpu.di, t.mem)) =
      some (0, 0x14, [(0x10, 0xCD), (0x11, 0xAB), (0x12, 0xCD), (0x13, 0xAB)]) := by decide

/-- 2.11: each conditional jump after CMP 05, 07: taken or not. -/
theorem test_conditional_jumps :
    [Instr.jo 8, .jno 8, .jb 8, .jnb 8, .jz 8, .jnz 8, .jbe 8, .ja 8, .js 8, .jns 8, .jp 8, .jnp 8, .jl 8,
      .jge 8, .jle 8, .jg 8].map (fun i => after (exec i (prepared (fun c =>
        { c with flags.sf := true, flags.af := true, flags.cf := true }) [])) fun t => t.cpu.ip) =
      [some 0, some 8, some 8, some 0, some 0, some 8, some 8, some 0, some 8, some 0, some 0, some 8, some 8,
        some 0, some 8, some 0] := by decide

/-- J2, J3, J5: JMP short -2, JMP near -3, and a jump that wraps within CS. -/
theorem test_jmp_relative :
    after (exec (.jmpJb 0xFE) (prepared (fun c => { c with ip := 0x0102 }) [])) (fun t => t.cpu.ip) =
      some 0x0100 ∧
    after (exec (.jmpJw 0xFFFD) (prepared (fun c => { c with ip := 0x0103 }) [])) (fun t => t.cpu.ip) =
      some 0x0100 ∧
    after (exec (.jmpJw 0x0020) (prepared (fun c => { c with ip := 0xFFF3 }) [])) (fun t => t.cpu.ip) =
      some 0x0013 := by decide

/-- J4: CALL pushes the offset after it. -/
theorem test_call :
    after (exec (.callJw 0x0FFD) (prepared (fun c => { c with ip := 0x0103, sp := 0x0100 }) []))
      (fun t => (t.cpu.ip, t.cpu.sp, t.mem)) = some (0x1100, 0x00FE, [(0xFE, 0x03), (0xFF, 0x01)]) := by decide

/-- J6, J9: JMP far and JMP BX. -/
theorem test_jmp_far_indirect :
    after (exec (.jmpAp 0x0000 0x0100) (prepared id [])) (fun t => (t.cpu.cs, t.cpu.ip)) =
      some (0x0100, 0x0000) ∧
    after (exec (.jmpEw (.reg .bx)) (prepared (fun c => { c with bx := 0x2000 }) [])) (fun t => t.cpu.ip) =
      some 0x2000 := by decide

/-- J7, J8: RETF and RET 4. -/
theorem test_returns :
    after (exec .retf (prepared (fun c => { c with sp := 0x00FC })
      [(0xFC, 0x34), (0xFD, 0x12), (0xFF, 0x20)]))
      (fun t => (t.cpu.ip, t.cpu.cs, t.cpu.sp)) = some (0x1234, 0x2000, 0x0100) ∧
    after (exec (.retIw 4) (prepared (fun c => { c with sp := 0x00FC }) [(0xFC, 0x34), (0xFD, 0x12)]))
      (fun t => (t.cpu.ip, t.cpu.sp)) = some (0x1234, 0x0102) := by decide

/-- J10 to J14: the loops. -/
theorem test_loops :
    after (exec (.loop 8) (prepared (fun c => { c with cx := 1 }) [])) (fun t => (t.cpu.ip, t.cpu.cx)) =
      some (0, 0) ∧
    after (exec (.loop 8) (prepared id [])) (fun t => (t.cpu.ip, t.cpu.cx)) = some (8, 0xFFFF) ∧
    after (exec (.loope 8) (prepared (fun c => { c with cx := 2, flags.zf := true }) []))
      (fun t => (t.cpu.ip, t.cpu.cx)) = some (8, 1) ∧
    after (exec (.loopne 8) (prepared (fun c => { c with cx := 2, flags.zf := true }) []))
      (fun t => (t.cpu.ip, t.cpu.cx)) = some (0, 1) ∧
    after (exec (.jcxz 8) (prepared id [])) (fun t => (t.cpu.ip, t.cpu.cx)) = some (8, 0) := by decide

/-- J15, X1: INT 21 pushes FLAGS, CS and the offset after it, clears IF and TF, and jumps. -/
theorem test_int :
    after (exec (.int 0x21) (prepared (fun c =>
      { c with ip := 0x001F, cs := 0x0100, ss := 0x0300, sp := 0x0100, flags.intf := true })
        [(0x85, 0x10), (0x87, 0xF0)]))
      (fun t => ([t.cpu.ip, t.cpu.cs, t.cpu.sp], t.cpu.flags.intf, t.mem)) =
      some ([0x1000, 0xF000, 0x00FA], false, [(0x85, 0x10), (0x87, 0xF0), (0x030FA, 0x1F), (0x030FD, 0x01),
        (0x030FE, 0x02), (0x030FF, 0xF2)]) := by decide

/-- J16, J17: INT3 and INTO. -/
theorem test_int3_into :
    after (exec .int3 (prepared (fun c => { c with ip := 0x0201, sp := 0x0100 }) [(12, 0x33)]))
      (fun t => (t.cpu.ip, memRead t.mem 0xFA, memRead t.mem 0xFB)) = some (0x0033, 0x01, 0x02) ∧
    after (exec .into (prepared (fun c => { c with ip := 0x0201, sp := 0x0100, flags.ovf := true }) [(16, 0x44)]))
      (fun t => t.cpu.ip) = some 0x0044 ∧
    after (exec .into (prepared (fun c => { c with ip := 0x0201, sp := 0x0100 }) [(16, 0x44)]))
      (fun t => t.cpu.ip) = some 0x0201 := by decide

/-- J18: IRET. -/
theorem test_iret :
    after (exec .iret (prepared (fun c => { c with ss := 0x0300, sp := 0x00FA })
      [(0x030FA, 0x1F), (0x030FD, 0x01), (0x030FE, 0x02), (0x030FF, 0xF2)]))
      (fun t => (t.cpu.ip, t.cpu.cs, t.cpu.sp, flagsWord t.cpu.flags)) =
      some (0x001F, 0x0100, 0x0100, 0xF202) := by decide

/-- P-1, P-2: CMC, STD, CLD; P-9: SALC, admitted and not. -/
theorem test_flag_instructions :
    after (exec .cmc (prepared (fun c => { c with flags.cf := true }) [])) (fun t => t.cpu.flags.cf) =
      some false ∧
    after (exec .std (prepared id [])) (fun t => t.cpu.flags.df) = some true ∧
    after (exec .cld (prepared (fun c => { c with flags.df := true }) [])) (fun t => t.cpu.flags.df) =
      some false := by decide

theorem test_salc :
    after (exec .salc (prepared (fun c => { c with flags.cf := true }) []))
      (fun t => (t.cpu.ax, t.eu.faulted.isSome)) = some (0x0000, true) ∧
    after (exec .salc (withParams (fun p => { p with undocAdmitted := [.u14] })
      (prepared (fun c => { c with flags.cf := true }) [])))
      (fun t => (t.cpu.ax, t.eu.faulted.isSome)) = some (0x00FF, false) := by decide

/-- P-3: STI sets the shadow; P-4: HLT; P-5: WAIT with TEST. -/
theorem test_sti_hlt_wait :
    after (exec .sti (prepared id [])) (fun t => (t.cpu.flags.intf, t.eu.shadow)) = some (true, true) ∧
    after (exec .hlt (prepared id [])) (fun t => t.eu.halted) = some true ∧
    after (exec .wait (prepared id [])) (fun t => t.eu.waiting) = some false := by decide

/-- P-6: ESC with a memory operand changes no register. -/
theorem test_esc :
    after (exec (.esc 1 0 (.mem (.direct 0x0200))) (prepared id [])) (fun t => t.cpu) =
      some (prepared id []).cpu := by decide

/-- P-7: LOCK INC byte [0500]: the bus is unlocked again at the end. -/
theorem test_lock_inc :
    after (exec (.incEb (.mem (.direct 0x0500))) (withEu (fun e => { e with lock := true }) (prepared id [])))
      (fun t => (t.mem, t.biu.lockOut, t.eu.lock)) = some ([(0x500, 0x01)], false, false) := by decide

/-- P-10, P-11: F1 and 0F are DecodeFaults; an admitted F1 is a LOCK prefix. -/
theorem test_undocumented :
    after (exec .lockAlias (prepared id [])) (fun t => t.eu.faulted.isSome) = some true ∧
    after (exec .popCs (prepared id [])) (fun t => (t.cpu.cs, t.eu.faulted.isSome)) = some (0xFFFF, true) ∧
    after (exec .lockAlias (withParams (fun p => { p with undocAdmitted := [.u12] }) (prepared id [])))
      (fun t => t.eu.lock) = some true := by decide

/-! ### Steps -/

/-- E8, R201: fetched from memory, `EB FE` jumps to itself. -/
theorem test_step_jump_to_itself :
    after (step (State.reset.withFetchWord 16 0xEBFE)) (fun t => (t.cpu.ip, t.biu.queue)) = some (0, []) := by
  decide

/-- S10: a repeat prefix before NOP is a DecodeFault. -/
theorem test_step_rep_nop :
    after (step (withEu (fun e => { e with rep := .repe, fetched := [0xF3] })
      (withQueue [0x90] (prepared (fun c => { c with ip := 1 }) []))))
      (fun t => t.eu.faulted) = some (some ⟨0xFFFF, 0, [0xF3, 0x90]⟩) := by decide

/-- X9: an unmapped read is a BusFault and latches NMI. -/
theorem test_bus_fault :
    after (exec (.movAlOb 0x8000) (withParams (fun p => { p with memMap := [⟨0, 0x8000, .ram⟩] })
      (withQueue [1, 2, 3, 4, 5, 6] (prepared id []))))
      (fun t => (t.busFaults, t.nmiLatch)) = some ([⟨.readMemory, 0x8000⟩], true) := by decide

/-- X2: NMI is taken before INTR. -/
theorem test_step_nmi :
    after (step { prepared (fun c => { c with sp := 0x0100, flags.intf := true }) [(8, 0x66)] with
      nmiLatch := true }) (fun t => (t.cpu.ip, t.nmiLatch, t.cpu.flags.intf)) = some (0x0066, false, false) := by
  decide

/-- X4: an armed trap enters vector 1. -/
theorem test_step_trap :
    after (step (withEu (fun e => { e with trapArmed := true })
      (prepared (fun c => { c with sp := 0x0100, flags.tf := true }) [(4, 0x55)])))
      (fun t => (t.cpu.ip, t.cpu.flags.tf, memRead t.mem 0xFF)) = some (0x0055, false, 0xF1) := by decide

/-- K10, X1: with INTR asserted and IF = 1 the controller's vector 09 is entered. -/
theorem test_step_intr :
    after (step (withPic (fun p => { p with init := .operational, sngl := true, upm := true, icw2 := 8, irr := 2 })
      (prepared (fun c => { c with sp := 0x0100, flags.intf := true }) [(0x24, 0x77)])))
      (fun t => (t.cpu.ip, t.pics.master.irr, t.pics.master.isr)) =
      some (0x0077, 0, .single (some 1)) := by decide

/-- X10: halted with IF = 0 and INTR asserted, the CPU stays halted, and with no input left the run ends. -/
theorem test_step_halted :
    step (withEu (fun e => { e with halted := true }) (prepared id [])) = .fault .haltedForGood := rfl

/-! ### The interrupt controller -/

/-- K3 to K6: ICW1 = 13, ICW2 = 08, ICW4 = 01. -/
theorem test_pic_init :
    (let p := picWriteData 0x01 (picWriteData 0x08 (picWriteCommand 0x20 (picWriteCommand 0x13 (.initial (.single none)))))
     (p.init, p.upm, p.icw2)) = (.operational, true, 0x08) := by decide

/-- K8: a masked request is dropped; K22: a poll accepts IR6. -/
theorem test_pic_mask_poll :
    (picIrq { Pic.initial (.single none) with init := .operational, imr := 0xFE } 3).irr = 0 ∧
    (let r := picReadCommand { Pic.initial (.single none) with init := .operational, irr := 0x40, pollPending := true }
      (fun j => j == 6) (fun _ => false)
     (r.2, r.1.irr, r.1.isr)) = (0x86, 0, .single (some 6)) := by decide

/-- K19, K20: IR2 outranks IR5; after OUT C3 it is the other way round. -/
theorem test_pic_rotation :
    (let p : Pic := { Pic.initial (.single none) with init := .operational, irr := 0x24 }
     (picWinner p (picOwnRequests p), picWinner (picWriteCommand 0xC3 p) (picOwnRequests p))) =
      (some 2, some 5) := by decide

/-- K18: with `bitmask`, a non-specific EOI ends level 0 first; K21: rotate on non-specific EOI. -/
theorem test_pic_eoi :
    (picWriteCommand 0x20 { Pic.initial (.bitmask 3) with init := .operational }).isr = .bitmask 2 ∧
    (let p := picWriteCommand 0xA0 { Pic.initial (.single (some 4)) with init := .operational }
     (p.isr, p.lowest)) = (.single none, 4) := by decide

/-- K26, K27: 8080 mode drives CD, then the low address byte. -/
theorem test_pic_8080 :
    (let ps : Pics := ⟨{ Pic.initial (.single none) with
        init := .operational, sngl := true, adi := true, a7to5 := 5, irr := 4 }, []⟩
     ((picsPulse false ps).2, (picsPulse true (picsPulse false ps).1).2)) = (some 0xCD, some 0xA8) := by decide

/-! ### Witnesses: each meets every hypothesis of the obligation it names -/

/-- What makes a state without listed inputs ready. -/
theorem ready_quiet {s : State} (h1 : frozen s = false) (h2 : s.biu.euReq = none)
    (h3 : busQuiet s.biu.bus = true) (h4 : s.env.inputs = []) : Ready s :=
  ⟨h1, ⟨h2, h3⟩, by rw [h4]; exact fun i hi => absurd hi (by simp)⟩

theorem ready_prepared (f : Cpu → Cpu) (m : Mem) : Ready (prepared f m) := ready_quiet rfl rfl rfl rfl

/-- The next state a step or an instruction answers. -/
def nextOr (s : State) (r : Result) : State :=
  match r with
  | .next t => t
  | .fault _ => s
  | .refused _ => s

/-- Every prefix of a unit's bytes, as a finite check. -/
theorem prefixes_of {l : List Byte} {p : List Byte → Bool} (h : (l.inits.all fun bs => !p bs) = true) :
    ∀ bs, bs <+: l → p bs = false := by
  intro bs hb
  have := List.all_eq_true.mp h bs ((List.mem_inits bs l).mpr hb)
  simpa using this

/-- A state at a boundary with MOV AX,1234 in the queue. -/
def queued : State := withQueue [0xB8, 0x34, 0x12, 0x90] (prepared (fun c => { c with cs := 0, ip := 0x100 }) [])

/-- Reset with JMP far F000:E05B stored at the first address fetched. -/
def bootJump : State :=
  prepared id [(0xFFFF0, 0xEA), (0xFFFF1, 0x5B), (0xFFFF2, 0xE0), (0xFFFF4, 0xF0)]

theorem witness_ResetTick : ∃ i : TickIn, i.reset = true := ⟨⟨true, false, false, false, true, [], []⟩, rfl⟩

theorem inv_queued : Inv queued := ⟨rfl, rfl, ⟨by decide, rfl⟩, fun _ => ⟨⟨rfl, rfl⟩, rfl, fun h => absurd h (by decide), rfl⟩⟩

theorem witness_StepKeepsInvariant : ∃ s t, Inv s ∧ step s = .next t := ⟨queued, _, inv_queued, rfl⟩

theorem witness_ParametersFixed : ∃ s t, step s = .next t := ⟨queued, _, rfl⟩

/-- One state for each end of a run. -/
theorem witness_RunEnds :
    (∃ s, Inv s ∧ step s = .fault (.decodeFault 0xFFFF 0 [0x0F])) ∧ (∃ s, Inv s ∧ step s = .fault .stopped) ∧
      (∃ s, Inv s ∧ step s = .fault .haltedForGood) :=
  ⟨⟨withEu (fun e => { e with faulted := some ⟨0xFFFF, 0, [0x0F]⟩ }) queued,
      ⟨rfl, rfl, ⟨by decide, rfl⟩, fun h => absurd h (by decide)⟩, rfl⟩,
    ⟨{ queued with stopped := true }, ⟨rfl, rfl, ⟨by decide, rfl⟩, fun h => absurd h (by decide)⟩, rfl⟩,
    ⟨withEu (fun e => { e with halted := true }) queued,
      ⟨rfl, rfl, ⟨by decide, rfl⟩, fun _ => ⟨⟨rfl, rfl⟩, rfl, fun _ => rfl, rfl⟩⟩, rfl⟩⟩

theorem witness_StepRunsUnit_boundary :
    ∃ (s : State) (i : Instr) (rest : List Byte), i.wf = true ∧ s.biu.queue = encode i ++ rest ∧ AtBoundary s ∧
      NothingPending s ∧ s.eu.halted = false ∧ ∀ bs, bs <+: encode i → mustFault (beginInstr s) bs = false :=
  ⟨queued, .movR16Iw .ax 0x1234, [0x90], rfl, rfl, ⟨rfl, rfl, rfl⟩, .inr ⟨rfl, rfl⟩, rfl,
    prefixes_of (by decide)⟩

/-- The same boundary under a set shadow, with an NMI pending. -/
theorem witness_StepRunsUnit_shadow :
    ∃ (s : State) (i : Instr) (rest : List Byte), i.wf = true ∧ s.biu.queue = encode i ++ rest ∧ AtBoundary s ∧
      s.nmiLatch = true ∧ NothingPending s ∧ s.eu.halted = false ∧
      ∀ bs, bs <+: encode i → mustFault (beginInstr s) bs = false :=
  ⟨{ withEu (fun e => { e with shadow := true }) queued with nmiLatch := true }, .movR16Iw .ax 0x1234, [0x90],
    rfl, rfl, ⟨rfl, rfl, rfl⟩, rfl, .inl rfl, rfl, prefixes_of (by decide)⟩

theorem witness_StepRunsUnit_prefixed :
    ∃ (s : State) (i : Instr) (rest : List Byte), i.wf = true ∧ s.biu.queue = encode i ++ rest ∧
      frozen s = false ∧ s.eu.waiting = false ∧ s.eu.fetched ≠ [] ∧
      ∀ bs, bs <+: encode i → mustFault s bs = false :=
  ⟨withEu (fun e => { e with fetched := [0x26], segOvr := some .es }) queued, .movR16Iw .ax 0x1234, [0x90],
    rfl, rfl, rfl, rfl, by decide, prefixes_of (by decide)⟩

theorem witness_StepFetchesMemory :
    ∃ (s : State) (i : Instr), Ready s ∧ BiuWf s.biu ∧ Coherent s ∧ AtBoundary s ∧ NothingPending s ∧
      s.eu.halted = false ∧ i.wf = true ∧ (∀ bs, bs <+: encode i → mustFault (beginInstr s) bs = false) ∧
      (∀ k b, (encode i)[k]? = some b →
        Backed s.params (phys s.cpu.cs (s.cpu.ip + BitVec.ofNat 16 k)) ∧
          memRead s.mem (phys s.cpu.cs (s.cpu.ip + BitVec.ofNat 16 k)) = b) := by
  refine ⟨bootJump, .jmpAp 0xE05B 0xF000, ready_prepared _ _, ⟨by decide, rfl⟩,
    ⟨fun k b h => absurd h (by show ¬ ([] : List Byte)[k]? = some b; simp), trivial⟩, ⟨rfl, rfl, rfl⟩,
    .inr ⟨rfl, rfl⟩, rfl, rfl, prefixes_of (by decide), ?_⟩
  intro k b h
  match k, h with
  | 0, h => exact ⟨.inl (by decide), by injection h⟩
  | 1, h => exact ⟨.inl (by decide), by injection h⟩
  | 2, h => exact ⟨.inl (by decide), by injection h⟩
  | 3, h => exact ⟨.inl (by decide), by injection h⟩
  | 4, h => exact ⟨.inl (by decide), by injection h⟩
  | n + 5, h => exact absurd h (by show ¬ ([0xEA, 0x5B, 0xE0, 0x00, 0xF0] : List Byte)[n + 5]? = some b; simp)

theorem witness_DecodeEncode : ∃ i : Instr, i.wf = true := ⟨.addEbGb (.mem (.disp8 .bp 0)) .al, rfl⟩

theorem witness_UndocumentedIdentified :
    (∃ i : Instr, i.wf = true ∧ i.undoc = some .u2) ∧ (∃ i : Instr, i.wf = true ∧ i.undoc = none) :=
  ⟨⟨.addEbIbAlias (.reg .al) 1, rfl, rfl⟩, ⟨.aam, rfl, rfl⟩⟩

theorem admitted_documented {p : Params} {i : Instr} (h : i.undoc = none) : admitted p i := by
  intro u hu
  rw [h] at hu
  cases hu

theorem admitted_listed {p : Params} {i : Instr} {u : UndocId} (h : i.undoc = some u) (ha : admits p u = true) :
    admitted p i := by
  intro v hv
  rw [h] at hv
  cases hv
  exact ha

/-- A state that admits one undocumented encoding. -/
def admitting (u : UndocId) : State := withParams (fun p => { p with undocAdmitted := [u] }) (prepared id [])

theorem ready_admitting (u : UndocId) : Ready (admitting u) := ready_quiet rfl rfl rfl rfl

/-- A memory destination, CMP, and an admitted alias. -/
theorem witness_AluByteForms :
    (∃ s i dst src, aluByte s i = some (.add, dst, src) ∧ admitted s.params i ∧ Ready s) ∧
    (∃ s i dst src, aluByte s i = some (.cmp, dst, src) ∧ admitted s.params i ∧ Ready s) ∧
    (∃ s i dst src, i.undoc ≠ none ∧ aluByte s i = some (.xor, dst, src) ∧ admitted s.params i ∧ Ready s) :=
  ⟨⟨prepared id [], .addEbGb (.mem (.direct 0xFFFF)) .al, _, _, rfl, admitted_documented rfl, ready_prepared _ _⟩,
    ⟨prepared id [], .cmpAlIb 7, _, _, rfl, admitted_documented rfl, ready_prepared _ _⟩,
    ⟨admitting .u2, .xorEbIbAlias (.reg .al) 7, _, _, by decide, rfl, admitted_listed rfl rfl, ready_admitting _⟩⟩

theorem witness_AluWordForms :
    (∃ s i dst src, aluWord s i = some (.adc, dst, src) ∧ admitted s.params i ∧ Ready s) ∧
    (∃ s i dst src, aluWord s i = some (.cmp, dst, src) ∧ admitted s.params i ∧ Ready s) ∧
    (∃ s i dst src, i.undoc ≠ none ∧ aluWord s i = some (.or, dst, src) ∧ admitted s.params i ∧ Ready s) :=
  ⟨⟨prepared id [], .adcEwGw (.mem (.direct 0xFFFF)) .ax, _, _, rfl, admitted_documented rfl, ready_prepared _ _⟩,
    ⟨prepared id [], .cmpAxIw 7, _, _, rfl, admitted_documented rfl, ready_prepared _ _⟩,
    ⟨admitting .u3, .orEwIbs (.reg .ax) 7, _, _, by decide, rfl, admitted_listed rfl rfl, ready_admitting _⟩⟩

theorem witness_UnaryForms :
    (∃ s i f dst, unaryByte s i = some (f, dst) ∧ Ready s) ∧ (∃ s i f dst, unaryWord s i = some (f, dst) ∧ Ready s) :=
  ⟨⟨prepared id [], .negEb (.mem (.ind .si)), _, _, rfl, ready_prepared _ _⟩,
    ⟨prepared id [], .incR16 .sp, _, _, rfl, ready_prepared _ _⟩⟩

theorem witness_TestForms :
    (∃ s i p src, testByte s i = some (p, src) ∧ admitted s.params i ∧ Ready s) ∧
    (∃ s i p src, testWord s i = some (p, src) ∧ admitted s.params i ∧ Ready s) :=
  ⟨⟨admitting .u11, .testEbIbAlias (.reg .al) 1, _, _, rfl, admitted_listed rfl rfl, ready_admitting _⟩,
    ⟨prepared id [], .testEwGw (.mem (.ind .bx)) .ax, _, _, rfl, admitted_documented rfl, ready_prepared _ _⟩⟩

/-- For the obligations whose only hypothesis is `Ready s`: NotForms, Multiplication, DecimalAdjust, AsciiAdjust,
Conversions, Exchanges, AddressLoads, UnconditionalJumps, Calls and InterruptReturn. -/
theorem witness_Ready : ∃ s, Ready s := ⟨queued, ready_quiet rfl rfl rfl rfl⟩

/-- Ready with inputs listed: NMI, HOLD and TEST may be anything. -/
theorem witness_Ready_inputs : ∃ s, s.env.inputs ≠ [] ∧ Ready s :=
  ⟨{ queued with env := ⟨[⟨false, false, true, true, false, [], []⟩], true, 0⟩ }, by decide,
    rfl, ⟨rfl, rfl⟩, fun i hi => by
      rw [List.mem_singleton.mp hi]
      exact ⟨rfl, rfl, rfl, rfl⟩⟩

/-- Both kinds of count of the carry clauses, and each of the three logical operations. -/
theorem witness_ShiftValues : (∃ n : Nat, n ≠ 0) ∧ (∃ n : Nat, n = 0) := ⟨⟨255, by decide⟩, ⟨0, rfl⟩⟩

theorem witness_AdditionSubtractionFlags (a b : Byte) :
    ∃ (op : AluOp) (r : Byte), (op = .and ∧ r = a &&& b) ∨ (op = .or ∧ r = a ||| b) ∨ (op = .xor ∧ r = a ^^^ b) :=
  ⟨.xor, a ^^^ b, .inr (.inr ⟨rfl, rfl⟩)⟩

/-- A count of 0, of 1, and of more than the width. -/
theorem witness_ShiftForms :
    (∃ s i dst, shiftByte s i = some (.rcl, 0, dst) ∧ Ready s) ∧
    (∃ s i dst, shiftByte s i = some (.sar, 255, dst) ∧ Ready s) ∧
    (∃ s i dst, shiftWord s i = some (.shl, 0, dst) ∧ Ready s) ∧
    (∃ s i dst, shiftWord s i = some (.ror, 1, dst) ∧ Ready s) :=
  ⟨⟨prepared id [], .rclEbCl (.reg .al), _, rfl, ready_prepared _ _⟩,
    ⟨prepared (fun c => { c with cx := 0xFF }) [], .sarEbCl (.mem (.ind .si)), _, rfl, ready_prepared _ _⟩,
    ⟨prepared id [], .shlEwCl (.reg .bx), _, rfl, ready_prepared _ _⟩,
    ⟨prepared id [], .rorEw1 (.reg .bx), _, rfl, ready_prepared _ _⟩⟩

/-- The limits of the quotient (2.5): FF fits and 100 does not; with divisor 0 nothing fits. -/
theorem witness_UnsignedDivision :
    (∃ s : State, Ready s ∧ fits s.cpu.ax.toNat (1 : Byte).toNat 0xFF) ∧
    (∃ s : State, Ready s ∧ ¬ fits s.cpu.ax.toNat (1 : Byte).toNat 0xFF) ∧
    (∃ s : State, Ready s ∧ ¬ fits s.cpu.ax.toNat (0 : Byte).toNat 0xFF) ∧
    (∃ s : State, Ready s ∧ fits (65536 * s.cpu.dx.toNat + s.cpu.ax.toNat) (2 : Word).toNat 0xFFFF) ∧
    (∃ s : State, Ready s ∧ ¬ fits (65536 * s.cpu.dx.toNat + s.cpu.ax.toNat) (2 : Word).toNat 0xFFFF) :=
  ⟨⟨prepared (fun c => { c with ax := 0xFF }) [], ready_prepared _ _, by unfold fits; decide⟩,
    ⟨prepared (fun c => { c with ax := 0x100 }) [], ready_prepared _ _, by unfold fits; decide⟩,
    ⟨prepared (fun c => { c with ax := 7 }) [], ready_prepared _ _, by unfold fits; decide⟩,
    ⟨prepared (fun c => { c with dx := 1, ax := 0xFFFF }) [], ready_prepared _ _, by unfold fits; decide⟩,
    ⟨prepared (fun c => { c with dx := 2 }) [], ready_prepared _ _, by unfold fits; decide⟩⟩

/-- The limits of the signed quotient (2.5): -127 fits and -128 does not. -/
theorem witness_SignedDivision :
    (∃ s : State, Ready s ∧ signedFits s.cpu.ax.toInt (1 : Byte).toInt 127) ∧
    (∃ s : State, Ready s ∧ ¬ signedFits s.cpu.ax.toInt (1 : Byte).toInt 127) ∧
    (∃ s : State, Ready s ∧ signedFits (65536 * s.cpu.dx.toInt + s.cpu.ax.toNat) (1 : Word).toInt 32767) ∧
    (∃ s : State, Ready s ∧ ¬ signedFits (65536 * s.cpu.dx.toInt + s.cpu.ax.toNat) (1 : Word).toInt 32767) :=
  ⟨⟨prepared (fun c => { c with ax := 0xFF81 }) [], ready_prepared _ _, by unfold signedFits; decide⟩,
    ⟨prepared (fun c => { c with ax := 0xFF80 }) [], ready_prepared _ _, by unfold signedFits; decide⟩,
    ⟨prepared (fun c => { c with dx := 0xFFFF, ax := 0x8001 }) [], ready_prepared _ _, by unfold signedFits; decide⟩,
    ⟨prepared (fun c => { c with dx := 0xFFFF, ax := 0x8000 }) [], ready_prepared _ _,
      by unfold signedFits; decide⟩⟩

/-- The documented base, another base, and base 0. -/
theorem witness_AsciiMultiplyDivide :
    (∃ s : State, ∃ i, ∃ base : Byte, Ready s ∧ (i = Instr.aam ∧ base = 0x0A ∨
      i = .aamBase base ∧ admits s.params .u16 = true) ∧ base ≠ 0) ∧
    (∃ s : State, ∃ i, ∃ base : Byte, Ready s ∧ (i = Instr.aam ∧ base = 0x0A ∨
      i = .aamBase base ∧ admits s.params .u16 = true) ∧ base = 0) ∧
    (∃ s : State, ∃ i, ∃ base : Byte, Ready s ∧ (i = Instr.aad ∧ base = 0x0A ∨
      i = .aadBase base ∧ admits s.params .u16 = true)) :=
  ⟨⟨prepared id [], .aam, 0x0A, ready_prepared _ _, .inl ⟨rfl, rfl⟩, by decide⟩,
    ⟨admitting .u16, .aamBase 0, 0, ready_admitting _, .inr ⟨rfl, rfl⟩, rfl⟩,
    ⟨admitting .u16, .aadBase 0x10, 0x10, ready_admitting _, .inr ⟨rfl, rfl⟩⟩⟩

theorem witness_MovForms :
    (∃ s i dst src, movByte s i = some (dst, src) ∧ admitted s.params i ∧ Ready s) ∧
    (∃ s i dst src, movWord s i = some (dst, src) ∧ admitted s.params i ∧ Ready s) :=
  ⟨⟨prepared id [], .movObAl 0xFFFF, _, _, rfl, admitted_documented rfl, ready_prepared _ _⟩,
    ⟨admitting .u5, .movEwSwAlias (.mem (.direct 0xFFFF)) .cs, _, _, rfl, admitted_listed rfl rfl,
      ready_admitting _⟩⟩

theorem witness_SegmentLoads :
    (∃ s i r p, movSeg s i = some (r, p) ∧ admitted s.params i ∧ Ready s) ∧ (∃ s, Ready s) :=
  ⟨⟨prepared id [], .movSwEw .ss (.reg .ax), _, _, rfl, admitted_documented rfl, ready_prepared _ _⟩, witness_Ready⟩

theorem witness_Pushes :
    (∃ s i src, pushed s i = some src ∧ admitted s.params i ∧ Ready s) ∧
    (∃ s i src, i.undoc ≠ none ∧ pushed s i = some src ∧ admitted s.params i ∧ Ready s) :=
  ⟨⟨prepared (fun c => { c with sp := 1 }) [], .pushR16 .sp, _, rfl, admitted_documented rfl, ready_prepared _ _⟩,
    ⟨admitting .u13, .pushEwAlias (.reg .sp), _, by decide, rfl, admitted_listed rfl rfl, ready_admitting _⟩⟩

theorem witness_Pops :
    (∃ s i dst, popped s i = some dst ∧ admitted s.params i ∧ Ready s) ∧ (∃ s, Ready s) :=
  ⟨⟨prepared (fun c => { c with sp := 0xFFFF }) [], .popR16 .sp, _, rfl, admitted_documented rfl,
    ready_prepared _ _⟩, witness_Ready⟩

/-- Every port address: an immediate, and DX at the top of the port space. -/
theorem witness_PortTransfers :
    (∃ s : State, ∃ i, ∃ p : Word, Ready s ∧
      ((∃ b, i = Instr.inAxIb b ∧ p = b.setWidth 16) ∨ (i = .inAxDx ∧ p = s.cpu.dx))) ∧
    (∃ s : State, ∃ i, ∃ p : Word, Ready s ∧
      ((∃ b, i = Instr.outIbAx b ∧ p = b.setWidth 16) ∨ (i = .outDxAx ∧ p = s.cpu.dx))) :=
  ⟨⟨prepared id [], .inAxIb 0x20, 0x20, ready_prepared _ _, .inl ⟨0x20, rfl, rfl⟩⟩,
    ⟨prepared (fun c => { c with dx := 0xFFFF }) [], .outDxAx, 0xFFFF, ready_prepared _ _, .inr ⟨rfl, rfl⟩⟩⟩

/-- Under a repeat prefix, with CX as given. -/
def repeating (cx : Word) : State :=
  withEu (fun e => { e with rep := .repe, fetched := [0xF3, 0xAA] }) (prepared (fun c => { c with cx := cx }) [])

/-- One element, at the top of its segments; and no element under a repeat prefix. -/
theorem witness_StringElements :
    (∃ s : State, Ready s ∧ s.eu.rep = .none) ∧
    (∃ (s : State) (i : Instr), Ready s ∧ isString i = true ∧ s.eu.rep ≠ .none ∧ s.cpu.cx = 0) :=
  ⟨⟨prepared (fun c => { c with si := 0xFFFF, di := 0xFFFF }) [], ready_prepared _ _, rfl⟩,
    ⟨repeating 0, .cmpsw, ready_quiet rfl rfl rfl rfl, rfl, by decide, rfl⟩⟩

/-- No repetition and the largest number of them. -/
theorem witness_RepeatedStore :
    (∃ s : State, Ready s ∧ Unsignalled s ∧ memWf s.mem = true ∧ s.eu.rep ≠ .none ∧ s.cpu.cx = 0) ∧
    (∃ s : State, Ready s ∧ Unsignalled s ∧ memWf s.mem = true ∧ s.eu.rep ≠ .none ∧ s.cpu.cx = 0xFFFF) := by
  have mapped : ∀ a, a < 0x100000 → regionKind Params.default.memMap a ≠ none := by
    intro a ha
    have : 0 ≤ a ∧ a < 0 + 0x100000 := ⟨Nat.zero_le _, by omega⟩
    simp only [Params.default, regionKind, if_pos this]
    exact Option.some_ne_none _
  have quiet : ∀ cx, Unsignalled (repeating cx) :=
    fun cx => ⟨⟨rfl, fun i hi => absurd hi (by show ¬ i ∈ []; simp), .inr mapped⟩, rfl⟩
  exact ⟨⟨repeating 0, ready_quiet rfl rfl rfl rfl, quiet 0, rfl, by decide, rfl⟩,
    ⟨repeating 0xFFFF, ready_quiet rfl rfl rfl rfl, quiet 0xFFFF, rfl, by decide, rfl⟩⟩

theorem witness_ConditionalJumps :
    (∃ s i cc d, conditional i = some (cc, d) ∧ admitted s.params i ∧ Ready s ∧ taken cc s.cpu.flags) ∧
    (∃ s i cc d, conditional i = some (cc, d) ∧ admitted s.params i ∧ Ready s ∧ ¬ taken cc s.cpu.flags) :=
  ⟨⟨admitting .u1, .jgAlias 0x80, .jg, 0x80, rfl, admitted_listed rfl rfl, ready_admitting _, rfl, rfl⟩,
    ⟨prepared id [], .jl 0x7F, .jl, 0x7F, rfl, admitted_documented rfl, ready_prepared _ _, fun h => h rfl⟩⟩

/-- CX = 1 ends a loop, CX = 0 wraps and goes on, and the flag condition can end one; JCXZ both ways. -/
theorem witness_Loops :
    (∃ s i cond, ∃ d : Byte, Ready s ∧ looping i = some (cond, d) ∧ s.cpu.cx = 0 ∧
      (s.cpu.cx ≠ 1 ∧ cond s.cpu.flags)) ∧
    (∃ s i cond, ∃ d : Byte, Ready s ∧ looping i = some (cond, d) ∧ ¬ (s.cpu.cx ≠ 1 ∧ cond s.cpu.flags)) ∧
    (∃ s : State, Ready s ∧ s.cpu.cx = 0) ∧ (∃ s : State, Ready s ∧ s.cpu.cx ≠ 0) :=
  ⟨⟨prepared id [], .loopne 0xFE, _, 0xFE, ready_prepared _ _, rfl, rfl, by decide, rfl⟩,
    ⟨prepared (fun c => { c with cx := 1 }) [], .loop 0xFE, _, 0xFE, ready_prepared _ _, rfl, fun h => h.1 rfl⟩,
    ⟨prepared id [], ready_prepared _ _, rfl⟩,
    ⟨prepared (fun c => { c with cx := 1 }) [], ready_prepared _ _, by decide⟩⟩

theorem witness_Returns :
    (∃ s i n, admitted s.params i ∧ Ready s ∧ nearReturn i = some n) ∧
    (∃ s i n, admitted s.params i ∧ Ready s ∧ farReturn i = some n) :=
  ⟨⟨admitting .u4, .retIwAlias 0xFFFE, _, admitted_listed rfl rfl, ready_admitting _, rfl⟩,
    ⟨prepared id [], .retf, _, admitted_documented rfl, ready_prepared _ _, rfl⟩⟩

theorem witness_SoftwareInterrupts :
    (∃ s : State, Ready s ∧ s.cpu.flags.ovf = true) ∧ (∃ s : State, Ready s ∧ s.cpu.flags.ovf = false) :=
  ⟨⟨prepared (fun c => { c with flags.ovf := true }) [], ready_prepared _ _, rfl⟩,
    ⟨prepared id [], ready_prepared _ _, rfl⟩⟩

/-- A stack at 0300:0100. -/
def stacked : State := prepared (fun c => { c with ss := 0x0300, sp := 0x0100, ip := 0x001F }) []

theorem witness_InterruptRoundTrip :
    ∃ (s t u : State) (n : Byte), Ready s ∧ memWf s.mem = true ∧ (∀ a ∈ frameAt s.cpu, InRam s.params a) ∧
      exec (.int n) s = .next t ∧ Ready u ∧ u.cpu.ss = t.cpu.ss ∧ u.cpu.sp = t.cpu.sp ∧ u.mem = t.mem ∧
      u.params = t.params :=
  ⟨stacked, nextOr stacked (exec (.int 0x21) stacked), nextOr stacked (exec (.int 0x21) stacked), 0x21,
    ready_prepared _ _, rfl, fun a ha => by
      have h : a < 0x100000 := by
        revert a
        decide
      show regionKind Params.default.memMap a = some .ram
      have : 0 ≤ a ∧ a < 0 + 0x100000 := ⟨Nat.zero_le _, by omega⟩
      simp only [Params.default, regionKind, if_pos this],
    rfl, ready_quiet rfl rfl rfl rfl, rfl, rfl, rfl, rfl⟩

theorem witness_FlagInstructions : ∃ s i f, Ready s ∧ flagChange i = some f := ⟨queued, .cmc, _,
  ready_quiet rfl rfl rfl rfl, rfl⟩

theorem witness_ProcessorControl :
    (∃ s : State, Ready s ∧ s.env.test = true) ∧ (∃ s : State, Ready s ∧ s.env.test = false) ∧
      (∃ s : State, Ready s ∧ admits s.params .u14 = true) :=
  ⟨⟨prepared id [], ready_prepared _ _, rfl⟩,
    ⟨{ prepared id [] with env := ⟨[], false, 0⟩ }, ready_quiet rfl rfl rfl rfl, rfl⟩,
    ⟨admitting .u14, ready_admitting _, rfl⟩⟩

theorem witness_Prefixes :
    (∃ (s : State) (i : Instr) (f : Eu → Eu), prefixed i = some f ∧ admitted s.params i) ∧
    (∃ (s : State) (i : Instr) (f : Eu → Eu), i.undoc ≠ none ∧ prefixed i = some f ∧ admitted s.params i) :=
  ⟨⟨prepared id [], .repne, _, rfl, admitted_documented rfl⟩,
    ⟨admitting .u12, .lockAlias, _, by decide, rfl, admitted_listed rfl rfl⟩⟩

/-- One that is not admitted, and one of each kind that has no meaning. -/
theorem witness_DecodeFaults :
    (∃ (s : State) (i : Instr), i.undoc = some .u14 ∧ admits s.params .u14 = false) ∧
    (∃ i : Instr, i.undoc = some .u7) ∧ (∃ i : Instr, i.undoc = some .u8) ∧ (∃ i : Instr, i.undoc = some .u9) ∧
    (∃ i : Instr, i.undoc = some .u17) ∧ (∃ i : Instr, i.undoc = some .u18) :=
  ⟨⟨prepared id [], .salc, rfl, rfl⟩, ⟨.popCs, rfl⟩, ⟨.leaReg .ax .ax, rfl⟩, ⟨.jmpFarReg .bx, rfl⟩,
    ⟨.shiftUndoc6 false false 3 0, rfl⟩, ⟨.feUndoc2 3 0, rfl⟩⟩

theorem witness_NmiAndTrapEntry :
    (∃ s, Ready s ∧ AtBoundary s ∧ s.eu.shadow = false ∧ s.nmiLatch = true) ∧
    (∃ s, Ready s ∧ AtBoundary s ∧ s.eu.shadow = false ∧ interruptPending s = false ∧ s.eu.trapArmed = true ∧
      s.eu.selfEntered = false) :=
  ⟨⟨{ stacked with nmiLatch := true }, ready_quiet rfl rfl rfl rfl, ⟨rfl, rfl, rfl⟩, rfl, rfl⟩,
    ⟨withEu (fun e => { e with trapArmed := true }) stacked, ready_quiet rfl rfl rfl rfl, ⟨rfl, rfl, rfl⟩, rfl, rfl,
      rfl, rfl⟩⟩

/-- A controller that drives a vector. -/
def signalled : State :=
  withPic (fun p => { p with init := .operational, sngl := true, upm := true, icw2 := 8, irr := 2 })
    (prepared (fun c => { c with flags.intf := true }) [])

theorem witness_MaskableEntry :
    ∃ s, Ready s ∧ AtBoundary s ∧ s.eu.shadow = false ∧ s.nmiLatch = false ∧ s.cpu.flags.intf = true ∧
      cpuIntr s.pics = true ∧ (picsPulse true (picsPulse false s.pics).1).2 = some 9 :=
  ⟨signalled, ready_quiet rfl rfl rfl rfl, ⟨rfl, rfl, rfl⟩, rfl, rfl, rfl, rfl, rfl⟩

theorem witness_Shadow : ∃ s, AtBoundary s ∧ s.eu.shadow = true ∧ s.eu.halted = false ∧ s.nmiLatch = true :=
  ⟨{ withEu (fun e => { e with shadow := true }) queued with nmiLatch := true }, ⟨rfl, rfl, rfl⟩, rfl, rfl, rfl⟩

theorem witness_FrozenTick :
    (∃ (i : TickIn) (s : State), frozen s = true ∧ i.reset = false ∧ i.irq ≠ [] ∧ i.stop = true ∧
      s.biu.bus ≠ .held) ∧
    (∃ (i : TickIn) (s : State) (a : Nat) (b : Byte), frozen s = true ∧ i.reset = false ∧ s.biu.bus = .held ∧
      i.dma = [.writeMemory a b] ∧ InRam s.params a ∧ memWf s.mem = true) :=
  ⟨⟨⟨false, true, true, true, false, [⟨.master, 1⟩], []⟩,
    withEu (fun e => { e with faulted := some ⟨0, 0, [0x0F]⟩ }) queued, rfl, rfl, by decide, rfl, by decide⟩,
    ⟨⟨false, false, false, true, true, [], [.writeMemory 0xFFFFF 0x42]⟩,
    { queued with stopped := true, biu := { Biu.reset with bus := .held, hlda := true } }, 0xFFFFF, 0x42,
    rfl, rfl, rfl, rfl, rfl, rfl⟩⟩

theorem witness_RequestsAndPriority :
    (∃ (p : Pic) (n : Bits3), p.imr.getLsbD n.toNat = true) ∧ (∃ (p : Pic) (n : Bits3), p.imr.getLsbD n.toNat = false) ∧
    (∃ (p : Pic) (req : Bits3 → Bool) (j : Bits3), picWinner p req = some j) ∧
    (∃ (p : Pic) (req : Bits3 → Bool), picWinner p req = none) :=
  ⟨⟨{ Pic.initial (.single none) with imr := 0x80 }, 7, rfl⟩, ⟨Pic.initial (.single none), 0, rfl⟩,
    ⟨Pic.initial (.single none), fun _ => true, 0, rfl⟩, ⟨Pic.initial (.single none), fun _ => false, rfl⟩⟩

theorem witness_Acknowledge :
    (∃ (p : Pic) (j : Bits3) (slaves : List Slave), p.sngl = true ∧ p.upm = true ∧
      picWinner p (masterRequests ⟨p, slaves⟩) = some j ∧ p.aeoi = false) ∧
    (∃ (p : Pic) (j : Bits3) (slaves : List Slave), p.sngl = true ∧ p.upm = true ∧
      picWinner p (masterRequests ⟨p, slaves⟩) = some j ∧ p.aeoi = true) :=
  ⟨⟨{ Pic.initial (.single none) with sngl := true, upm := true, irr := 0x80 }, 7, [], rfl, rfl, rfl, rfl⟩,
    ⟨{ Pic.initial (.bitmask 0) with sngl := true, upm := true, irr := 1, aeoi := true }, 0, [], rfl, rfl, rfl, rfl⟩⟩

theorem witness_ControllerCommands :
    (∃ b1 : Byte, b1.getLsbD 4 = true ∧ b1.getLsbD 0 = true ∧ b1.getLsbD 1 = false) ∧
    (∃ b1 : Byte, b1.getLsbD 4 = true ∧ b1.getLsbD 0 = true ∧ b1.getLsbD 1 = true) ∧
    (∃ p : Pic, p.init = .operational ∧ p.isr = .bitmask 0) ∧
    (∃ (p : Pic) (levels : Byte), p.init = .operational ∧ p.isr = .bitmask levels ∧ levels ≠ 0) ∧
    (∃ (p : Pic) (level : Option Bits3), p.init = .operational ∧ p.isr = .single level) :=
  ⟨⟨0x11, rfl, rfl, rfl⟩, ⟨0x13, rfl, rfl, rfl⟩,
    ⟨{ Pic.initial (.bitmask 0) with init := .operational }, rfl, rfl⟩,
    ⟨{ Pic.initial (.bitmask 0x81) with init := .operational }, 0x81, rfl, rfl, by decide⟩,
    ⟨{ Pic.initial (.single (some 4)) with init := .operational }, some 4, rfl, rfl⟩⟩

/-- A bus transaction in a given phase. -/
def inPhase (ph : Phase) : State :=
  { queued with biu := { queued.biu with bus := .busy ⟨.readMemory, .mem 0 0, 0, ph, .eu, false⟩ } }

theorem witness_PhaseOrder (ph : Phase) (h : ph ≠ .clear ∧ ph ≠ .none) :
    ∃ (s : State) (t : Txn), s.biu.bus = .busy t ∧ t.phase = ph ∧ t.phase ≠ .clear ∧ t.phase ≠ .none :=
  ⟨inPhase ph, _, rfl, rfl, h.1, h.2⟩

/-- HOLD granted; HOLD refused under LOCK with a request; a prefetch; and a full queue. -/
theorem witness_Arbitration :
    (∃ s : State, s.biu.bus = .passive ∧ s.biu.lockOut = false) ∧
    (∃ (s : State) (t : Txn), s.biu.bus = .busy t ∧ t.phase = .clear ∧ s.biu.lockOut = false) ∧
    (∃ (s : State) (r : Request), s.biu.bus = .passive ∧ s.biu.lockOut = true ∧ s.biu.euReq = some r) ∧
    (∃ s : State, s.biu.bus = .passive ∧ s.biu.euReq = none ∧
      (s.biu.queue.length < 6 ∧ s.eu.halted = false ∧ s.eu.faulted = none ∧ s.stopped = false)) ∧
    (∃ (s : State) (t : Txn), s.biu.bus = .busy t ∧ t.phase = .clear ∧ s.biu.euReq = none ∧
      ¬ (s.biu.queue.length < 6 ∧ s.eu.halted = false ∧ s.eu.faulted = none ∧ s.stopped = false)) :=
  ⟨⟨queued, rfl, rfl⟩,
    ⟨setBus (.busy ⟨.readMemory, .mem 0 0, 0x55, .clear, .eu, false⟩) queued, _, rfl, rfl, rfl⟩,
    ⟨{ queued with biu := { queued.biu with lockOut := true, euReq := some ⟨.readPort, .port 0, 0⟩ } }, _, rfl, rfl, rfl⟩,
    ⟨withQueue [1, 2, 3, 4, 5] queued, rfl, rfl, by decide⟩,
    ⟨setBus (.busy ⟨.instructionFetch, .mem 0 0x105, 6, .clear, .prefetch, false⟩)
      (withQueue [1, 2, 3, 4, 5, 6] queued), _, rfl, rfl, rfl, by decide⟩⟩

theorem witness_BusFaults :
    ∃ (s : State) (seg off : Word), regionKind s.params.memMap (phys seg off) = none :=
  ⟨withParams (fun p => { p with memMap := [⟨0, 0x8000, .ram⟩] }) queued, 0xFFFF, 0x000F, rfl⟩

theorem witness_StorageLaws : ∃ m : Mem, memWf m = true ∧ m ≠ [] := ⟨[(0, 1), (0xFFFFF, 2)], rfl, by decide⟩

end Sys2Proof.Tests
end

section
/-! PROOFS. What the Execution Engine's work is made of: eight primitive operations, sequenced. The meaning of every
unit is such a piece of work run as a whole instruction, or one of three short forms; a property of steps then
has to be shown of the primitives and of those forms alone. -/

namespace Sys2Proof.Machine

/-- A piece of work built from the primitive operations of the Execution Engine. Its changes of the Execution
Engine's own state leave the DecodeFault record alone (R803). -/
inductive Built : {α : Type} → EU α → Prop
  | pure {α : Type} (a : α) : Built (Pure.pure a : EU α)
  | bind {α β : Type} {m : EU α} {f : α → EU β} (hm : Built m) (hf : ∀ a, Built (f a)) : Built (m >>= f)
  | readS {α : Type} (f : State → α) : Built (Machine.readS f)
  | modifyCpu (f : Cpu → Cpu) : Built (Machine.modifyCpu f)
  | modifyEu {f : Eu → Eu} (hf : ∀ e, (f e).faulted = e.faulted) : Built (Machine.modifyEu f)
  | drawBit : Built Machine.drawBit
  | busAccess (r : Request) : Built (Machine.busAccess r)
  | jump (off : Word) : Built (Machine.jump off)
  | jumpFar (seg off : Word) : Built (Machine.jumpFar seg off)
  | setLockOut (b : Bool) : Built (Machine.setLockOut b)

namespace Built

theorem ite {α : Type} {c : Prop} [Decidable c] {m n : EU α} (hm : Built m) (hn : Built n) :
    Built (if c then m else n) := by
  split
  · exact hm
  · exact hn

theorem modifyFlags (f : Flags → Flags) : Built (Machine.modifyFlags f) := modifyCpu _

theorem drawIf (b : Bool) : Built (Machine.drawIf b) := ite drawBit (pure false)

/-! ### Memory, ports and the stack -/

theorem memRead8 (seg off : Word) : Built (Machine.memRead8 seg off) := busAccess _

theorem memWrite8 (seg off : Word) (b : Byte) : Built (Machine.memWrite8 seg off b) :=
  (busAccess _).bind fun _ => pure ()

theorem memRead16 (seg off : Word) : Built (Machine.memRead16 seg off) :=
  (memRead8 _ _).bind fun _ => (memRead8 _ _).bind fun _ => pure _

theorem memWrite16 (seg off v : Word) : Built (Machine.memWrite16 seg off v) :=
  (memWrite8 _ _ _).bind fun _ => memWrite8 _ _ _

theorem portRead8 (p : Word) : Built (Machine.portRead8 p) := busAccess _

theorem portWrite8 (p : Word) (b : Byte) : Built (Machine.portWrite8 p b) :=
  (busAccess _).bind fun _ => pure ()

theorem portRead16 (p : Word) : Built (Machine.portRead16 p) :=
  (portRead8 _).bind fun _ => (portRead8 _).bind fun _ => pure _

theorem portWrite16 (p v : Word) : Built (Machine.portWrite16 p v) :=
  (portWrite8 _ _).bind fun _ => portWrite8 _ _

theorem readFarPointer (seg off : Word) : Built (Machine.readFarPointer seg off) :=
  (memRead16 _ _).bind fun _ => (memRead16 _ _).bind fun _ => pure _

theorem push (v : Word) : Built (Machine.push v) :=
  (modifyCpu _).bind fun _ => (readS _).bind fun _ => memWrite16 _ _ _

theorem pop : Built Machine.pop :=
  (readS _).bind fun _ => (memRead16 _ _).bind fun _ => (modifyCpu _).bind fun _ => pure _

/-! ### Interrupts -/

theorem interruptEntry (n : Byte) (ret : Word) : Built (Machine.interruptEntry n ret) :=
  (modifyEu (f := fun e => { e with selfEntered := true }) fun _ => rfl).bind fun _ =>
    (readS _).bind fun _ => (push _).bind fun _ =>
    (modifyFlags _).bind fun _ => (readS _).bind fun _ => (push _).bind fun _ => (push _).bind fun _ =>
      (memRead16 _ _).bind fun _ => (memRead16 _ _).bind fun _ => jumpFar _ _

theorem enterAtIp (n : Byte) : Built (Machine.enterAtIp n) := (readS _).bind fun _ => interruptEntry _ _

theorem divideError : Built Machine.divideError := enterAtIp 0

theorem interruptReturn : Built Machine.interruptReturn :=
  pop.bind fun _ => pop.bind fun _ => pop.bind fun _ => (jumpFar _ _).bind fun _ => modifyFlags _

theorem intaSequence : Built Machine.intaSequence :=
  (setLockOut _).bind fun _ => (busAccess _).bind fun _ => (busAccess _).bind fun _ =>
    (setLockOut _).bind fun _ => pure _

theorem intoOp : Built Machine.intoOp := (readS _).bind fun _ => ite (enterAtIp 4) (pure ())

/-! ### Operands -/

theorem resolve {ρ : Type} (e : Rm ρ) : Built (Machine.resolve e) := readS _

theorem getReg8 (r : Reg8) : Built (Machine.getReg8 r) := readS _

theorem getReg16 (r : Reg16) : Built (Machine.getReg16 r) := readS _

theorem putReg8 (r : Reg8) (v : Byte) : Built (Machine.putReg8 r v) := modifyCpu _

theorem putReg16 (r : Reg16) (v : Word) : Built (Machine.putReg16 r v) := modifyCpu _

theorem readPlace8 (p : Place Reg8) : Built (Machine.readPlace8 p) := by
  cases p with
  | reg r => exact readS _
  | mem seg off => exact memRead8 _ _

theorem readPlace16 (p : Place Reg16) : Built (Machine.readPlace16 p) := by
  cases p with
  | reg r => exact readS _
  | mem seg off => exact memRead16 _ _

theorem writePlace8 (p : Place Reg8) (v : Byte) : Built (Machine.writePlace8 p v) := by
  cases p with
  | reg r => exact modifyCpu _
  | mem seg off => exact memWrite8 _ _ _

theorem writePlace16 (p : Place Reg16) (v : Word) : Built (Machine.writePlace16 p v) := by
  cases p with
  | reg r => exact modifyCpu _
  | mem seg off => exact memWrite16 _ _ _

theorem setShadow : Built Machine.setShadow := modifyEu fun _ => rfl

/-! ### Arithmetic and logic -/

theorem aluCompute {w : Nat} (op : AluOp) (a b : BitVec w) : Built (Machine.aluCompute op a b) :=
  (drawIf _).bind fun _ => (readS _).bind fun _ => (modifyFlags _).bind fun _ => pure _

theorem aluStore8 (op : AluOp) (p : Place Reg8) (r : Byte) : Built (Machine.aluStore8 op p r) :=
  ite (writePlace8 _ _) (pure ())

theorem aluStore16 (op : AluOp) (p : Place Reg16) (r : Word) : Built (Machine.aluStore16 op p r) :=
  ite (writePlace16 _ _) (pure ())

theorem aluEbGb (op : AluOp) (dst : Rm Reg8) (src : Reg8) : Built (Machine.aluEbGb op dst src) :=
  (resolve _).bind fun _ => (readPlace8 _).bind fun _ => (getReg8 _).bind fun _ =>
    (aluCompute _ _ _).bind fun _ => aluStore8 _ _ _

theorem aluEwGw (op : AluOp) (dst : Rm Reg16) (src : Reg16) : Built (Machine.aluEwGw op dst src) :=
  (resolve _).bind fun _ => (readPlace16 _).bind fun _ => (getReg16 _).bind fun _ =>
    (aluCompute _ _ _).bind fun _ => aluStore16 _ _ _

theorem aluGbEb (op : AluOp) (dst : Reg8) (src : Rm Reg8) : Built (Machine.aluGbEb op dst src) :=
  (resolve _).bind fun _ => (getReg8 _).bind fun _ => (readPlace8 _).bind fun _ =>
    (aluCompute _ _ _).bind fun _ => aluStore8 _ _ _

theorem aluGwEw (op : AluOp) (dst : Reg16) (src : Rm Reg16) : Built (Machine.aluGwEw op dst src) :=
  (resolve _).bind fun _ => (getReg16 _).bind fun _ => (readPlace16 _).bind fun _ =>
    (aluCompute _ _ _).bind fun _ => aluStore16 _ _ _

theorem aluEbIb (op : AluOp) (dst : Rm Reg8) (imm : Byte) : Built (Machine.aluEbIb op dst imm) :=
  (resolve _).bind fun _ => (readPlace8 _).bind fun _ => (aluCompute _ _ _).bind fun _ => aluStore8 _ _ _

theorem aluEwIw (op : AluOp) (dst : Rm Reg16) (imm : Word) : Built (Machine.aluEwIw op dst imm) :=
  (resolve _).bind fun _ => (readPlace16 _).bind fun _ => (aluCompute _ _ _).bind fun _ => aluStore16 _ _ _

theorem unary8 (f : Byte → Flags → AluOut 8) (dst : Rm Reg8) : Built (Machine.unary8 f dst) :=
  (resolve _).bind fun _ => (readPlace8 _).bind fun _ => (readS _).bind fun _ =>
    (modifyFlags _).bind fun _ => writePlace8 _ _

theorem unary16 (f : Word → Flags → AluOut 16) (dst : Rm Reg16) : Built (Machine.unary16 f dst) :=
  (resolve _).bind fun _ => (readPlace16 _).bind fun _ => (readS _).bind fun _ =>
    (modifyFlags _).bind fun _ => writePlace16 _ _

theorem mulFlags (big : Bool) : Built (Machine.mulFlags big) :=
  drawBit.bind fun _ => drawBit.bind fun _ => drawBit.bind fun _ => drawBit.bind fun _ => modifyFlags _

theorem drawStatusFlags : Built Machine.drawStatusFlags :=
  drawBit.bind fun _ => drawBit.bind fun _ => drawBit.bind fun _ => drawBit.bind fun _ =>
    drawBit.bind fun _ => drawBit.bind fun _ => modifyFlags _

theorem mulEbOp (src : Rm Reg8) : Built (Machine.mulEbOp src) :=
  (resolve _).bind fun _ => (readPlace8 _).bind fun _ => (readS _).bind fun _ =>
    (modifyCpu _).bind fun _ => mulFlags _

theorem mulEwOp (src : Rm Reg16) : Built (Machine.mulEwOp src) :=
  (resolve _).bind fun _ => (readPlace16 _).bind fun _ => (readS _).bind fun _ =>
    (modifyCpu _).bind fun _ => mulFlags _

theorem imulEbOp (src : Rm Reg8) : Built (Machine.imulEbOp src) :=
  (resolve _).bind fun _ => (readPlace8 _).bind fun _ => (readS _).bind fun _ =>
    (modifyCpu _).bind fun _ => mulFlags _

theorem imulEwOp (src : Rm Reg16) : Built (Machine.imulEwOp src) :=
  (resolve _).bind fun _ => (readPlace16 _).bind fun _ => (readS _).bind fun _ =>
    (modifyCpu _).bind fun _ => mulFlags _

theorem divideByte (f : Word → Byte → Option (Byte × Byte)) (src : Rm Reg8) :
    Built (Machine.divideByte f src) := by
  refine (resolve _).bind fun _ => (readPlace8 _).bind fun s => (readS _).bind fun c => ?_
  cases f c.ax s with
  | none => exact divideError
  | some qm => exact (modifyCpu _).bind fun _ => drawStatusFlags

theorem divideWord (f : BitVec 32 → Word → Option (Word × Word)) (src : Rm Reg16) :
    Built (Machine.divideWord f src) := by
  refine (resolve _).bind fun _ => (readPlace16 _).bind fun s => (readS _).bind fun c => ?_
  cases f (dxAx c) s with
  | none => exact divideError
  | some qm => exact (modifyCpu _).bind fun _ => drawStatusFlags

theorem decimalAdjust (f : Byte → Flags → AluOut 8) : Built (Machine.decimalAdjust f) :=
  (readS _).bind fun _ => drawBit.bind fun _ => modifyCpu _

theorem asciiAdjust (low high : Byte) : Built (Machine.asciiAdjust low high) :=
  (readS _).bind fun _ => drawBit.bind fun _ => drawBit.bind fun _ => drawBit.bind fun _ =>
    drawBit.bind fun _ => modifyCpu _

theorem asciiResult (ax : Word) : Built (Machine.asciiResult ax) :=
  drawBit.bind fun _ => drawBit.bind fun _ => drawBit.bind fun _ => modifyCpu _

theorem aamOp (base : Byte) : Built (Machine.aamOp base) :=
  (readS _).bind fun _ => ite divideError (asciiResult _)

theorem aadOp (base : Byte) : Built (Machine.aadOp base) := (readS _).bind fun _ => asciiResult _

theorem testFlags {w : Nat} (a b : BitVec w) : Built (Machine.testFlags a b) :=
  (aluCompute _ _ _).bind fun _ => pure ()

theorem testEbGbOp (e : Rm Reg8) (g : Reg8) : Built (Machine.testEbGbOp e g) :=
  (resolve _).bind fun _ => (readPlace8 _).bind fun _ => (getReg8 _).bind fun _ => testFlags _ _

theorem testEwGwOp (e : Rm Reg16) (g : Reg16) : Built (Machine.testEwGwOp e g) :=
  (resolve _).bind fun _ => (readPlace16 _).bind fun _ => (getReg16 _).bind fun _ => testFlags _ _

theorem testEbIbOp (e : Rm Reg8) (imm : Byte) : Built (Machine.testEbIbOp e imm) :=
  (resolve _).bind fun _ => (readPlace8 _).bind fun _ => testFlags _ _

theorem testEwIwOp (e : Rm Reg16) (imm : Word) : Built (Machine.testEwIwOp e imm) :=
  (resolve _).bind fun _ => (readPlace16 _).bind fun _ => testFlags _ _

theorem notEbOp (dst : Rm Reg8) : Built (Machine.notEbOp dst) :=
  (resolve _).bind fun _ => (readPlace8 _).bind fun _ => writePlace8 _ _

theorem notEwOp (dst : Rm Reg16) : Built (Machine.notEwOp dst) :=
  (resolve _).bind fun _ => (readPlace16 _).bind fun _ => writePlace16 _ _

/-! ### Shifts and rotates -/

theorem shiftFlags {w : Nat} (k : ShiftKind) (n : Nat) (x : BitVec w) (f : Flags) :
    Built (Machine.shiftFlags k n x f) :=
  (drawIf _).bind fun _ => (drawIf _).bind fun _ => modifyFlags _

theorem shift8 (k : ShiftKind) (n : Nat) (dst : Rm Reg8) : Built (Machine.shift8 k n dst) :=
  (resolve _).bind fun _ => (readPlace8 _).bind fun _ => (readS _).bind fun _ =>
    ite (pure ()) ((modifyFlags _).bind fun _ => (writePlace8 _ _).bind fun _ => shiftFlags _ _ _ _)

theorem shift16 (k : ShiftKind) (n : Nat) (dst : Rm Reg16) : Built (Machine.shift16 k n dst) :=
  (resolve _).bind fun _ => (readPlace16 _).bind fun _ => (readS _).bind fun _ =>
    ite (pure ()) ((modifyFlags _).bind fun _ => (writePlace16 _ _).bind fun _ => shiftFlags _ _ _ _)

theorem shiftEbCl (k : ShiftKind) (dst : Rm Reg8) : Built (Machine.shiftEbCl k dst) :=
  (readS _).bind fun _ => shift8 _ _ _

theorem shiftEwCl (k : ShiftKind) (dst : Rm Reg16) : Built (Machine.shiftEwCl k dst) :=
  (readS _).bind fun _ => shift16 _ _ _

/-! ### Control transfer -/

theorem jumpRelative (disp : Word) : Built (Machine.jumpRelative disp) := (readS _).bind fun _ => jump _

theorem branchIf (cond : Cpu → Bool) (disp : Byte) : Built (Machine.branchIf cond disp) :=
  (readS _).bind fun _ => ite (jumpRelative _) (pure ())

theorem loopWhile (cond : Flags → Bool) (disp : Byte) : Built (Machine.loopWhile cond disp) :=
  (modifyCpu _).bind fun _ => branchIf _ _

theorem jmpEwOp (target : Rm Reg16) : Built (Machine.jmpEwOp target) :=
  (resolve _).bind fun _ => (readPlace16 _).bind fun _ => jump _

theorem jmpMpOp (ptr : MemOp) : Built (Machine.jmpMpOp ptr) :=
  (readS _).bind fun _ => (readFarPointer _ _).bind fun _ => jumpFar _ _

theorem callJwOp (disp : Word) : Built (Machine.callJwOp disp) :=
  (readS _).bind fun _ => (push _).bind fun _ => jump _

theorem callEwOp (target : Rm Reg16) : Built (Machine.callEwOp target) :=
  (resolve _).bind fun _ => (readPlace16 _).bind fun _ => (readS _).bind fun _ => (push _).bind fun _ => jump _

theorem callFar (off sel : Word) : Built (Machine.callFar off sel) :=
  (readS _).bind fun _ => (push _).bind fun _ => (push _).bind fun _ => jumpFar _ _

theorem callMpOp (ptr : MemOp) : Built (Machine.callMpOp ptr) :=
  (readS _).bind fun _ => (readFarPointer _ _).bind fun _ => callFar _ _

theorem retIwOp (release : Word) : Built (Machine.retIwOp release) :=
  pop.bind fun _ => (modifyCpu _).bind fun _ => jump _

theorem retfIwOp (release : Word) : Built (Machine.retfIwOp release) :=
  pop.bind fun _ => pop.bind fun _ => (jumpFar _ _).bind fun _ => modifyCpu _

/-! ### Data transfer -/

theorem movEbGbOp (dst : Rm Reg8) (src : Reg8) : Built (Machine.movEbGbOp dst src) :=
  (resolve _).bind fun _ => (getReg8 _).bind fun _ => writePlace8 _ _

theorem movEwGwOp (dst : Rm Reg16) (src : Reg16) : Built (Machine.movEwGwOp dst src) :=
  (resolve _).bind fun _ => (getReg16 _).bind fun _ => writePlace16 _ _

theorem movGbEbOp (dst : Reg8) (src : Rm Reg8) : Built (Machine.movGbEbOp dst src) :=
  (resolve _).bind fun _ => (readPlace8 _).bind fun _ => putReg8 _ _

theorem movGwEwOp (dst : Reg16) (src : Rm Reg16) : Built (Machine.movGwEwOp dst src) :=
  (resolve _).bind fun _ => (readPlace16 _).bind fun _ => putReg16 _ _

theorem movEbIbOp (dst : Rm Reg8) (imm : Byte) : Built (Machine.movEbIbOp dst imm) :=
  (resolve _).bind fun _ => writePlace8 _ _

theorem movEwIwOp (dst : Rm Reg16) (imm : Word) : Built (Machine.movEwIwOp dst imm) :=
  (resolve _).bind fun _ => writePlace16 _ _

theorem movAlObOp (off : Word) : Built (Machine.movAlObOp off) :=
  (readS _).bind fun _ => (memRead8 _ _).bind fun _ => putReg8 _ _

theorem movAxOwOp (off : Word) : Built (Machine.movAxOwOp off) :=
  (readS _).bind fun _ => (memRead16 _ _).bind fun _ => putReg16 _ _

theorem movObAlOp (off : Word) : Built (Machine.movObAlOp off) :=
  (readS _).bind fun _ => (getReg8 _).bind fun _ => memWrite8 _ _ _

theorem movOwAxOp (off : Word) : Built (Machine.movOwAxOp off) :=
  (readS _).bind fun _ => (getReg16 _).bind fun _ => memWrite16 _ _ _

theorem movEwSwOp (dst : Rm Reg16) (src : SReg) : Built (Machine.movEwSwOp dst src) :=
  (resolve _).bind fun _ => (readS _).bind fun _ => writePlace16 _ _

theorem movSwEwOp (dst : SReg) (src : Rm Reg16) : Built (Machine.movSwEwOp dst src) :=
  (resolve _).bind fun _ => (readPlace16 _).bind fun _ => (modifyCpu _).bind fun _ => setShadow

theorem pushR16Op (src : Reg16) : Built (Machine.pushR16Op src) := (readS _).bind fun _ => push _

theorem pushEwOp (src : Rm Reg16) : Built (Machine.pushEwOp src) := by
  cases src with
  | reg r => exact pushR16Op r
  | mem m => exact (resolve _).bind fun _ => (readPlace16 _).bind fun _ => push _

theorem pushSregOp (src : SReg) : Built (Machine.pushSregOp src) := (readS _).bind fun _ => push _

theorem pushfOp : Built Machine.pushfOp := (readS _).bind fun _ => push _

theorem popR16Op (dst : Reg16) : Built (Machine.popR16Op dst) := pop.bind fun _ => putReg16 _ _

theorem popEwOp (dst : Rm Reg16) : Built (Machine.popEwOp dst) :=
  (resolve _).bind fun _ => pop.bind fun _ => writePlace16 _ _

theorem popSregOp (dst : SReg) : Built (Machine.popSregOp dst) :=
  pop.bind fun _ => (modifyCpu _).bind fun _ => setShadow

theorem popfOp : Built Machine.popfOp := pop.bind fun _ => modifyFlags _

theorem xchgEbGbOp (e : Rm Reg8) (g : Reg8) : Built (Machine.xchgEbGbOp e g) :=
  (resolve _).bind fun _ => (readPlace8 _).bind fun _ => (getReg8 _).bind fun _ =>
    (writePlace8 _ _).bind fun _ => putReg8 _ _

theorem xchgEwGwOp (e : Rm Reg16) (g : Reg16) : Built (Machine.xchgEwGwOp e g) :=
  (resolve _).bind fun _ => (readPlace16 _).bind fun _ => (getReg16 _).bind fun _ =>
    (writePlace16 _ _).bind fun _ => putReg16 _ _

theorem xlatOp : Built Machine.xlatOp :=
  (readS _).bind fun _ => (memRead8 _ _).bind fun _ => putReg8 _ _

theorem leaOp (dst : Reg16) (src : MemOp) : Built (Machine.leaOp dst src) :=
  (readS _).bind fun _ => putReg16 _ _

theorem loadFarPointer (sel : SReg) (dst : Reg16) (src : MemOp) : Built (Machine.loadFarPointer sel dst src) :=
  (readS _).bind fun _ => (readFarPointer _ _).bind fun _ => (putReg16 _ _).bind fun _ => modifyCpu _

theorem inAl (p : Word) : Built (Machine.inAl p) := (portRead8 _).bind fun _ => putReg8 _ _

theorem inAx (p : Word) : Built (Machine.inAx p) := (portRead16 _).bind fun _ => putReg16 _ _

theorem outAl (p : Word) : Built (Machine.outAl p) := (getReg8 _).bind fun _ => portWrite8 _ _

theorem outAx (p : Word) : Built (Machine.outAx p) := (getReg16 _).bind fun _ => portWrite16 _ _

theorem inAlDxOp : Built Machine.inAlDxOp := (getReg16 _).bind fun _ => inAl _

theorem inAxDxOp : Built Machine.inAxDxOp := (getReg16 _).bind fun _ => inAx _

theorem outDxAlOp : Built Machine.outDxAlOp := (getReg16 _).bind fun _ => outAl _

theorem outDxAxOp : Built Machine.outDxAxOp := (getReg16 _).bind fun _ => outAx _

/-! ### Processor control -/

theorem stiOp : Built Machine.stiOp := (modifyFlags _).bind fun _ => setShadow

theorem hltOp : Built Machine.hltOp := (busAccess _).bind fun _ => modifyEu fun _ => rfl

theorem escOp (op reg : Bits3) (e : Rm Reg16) : Built (Machine.escOp op reg e) := by
  cases e with
  | reg r => exact pure ()
  | mem m => exact (resolve _).bind fun _ => (readPlace16 _).bind fun _ => pure ()

/-! ### String instructions -/

theorem sourceByte : Built Machine.sourceByte := (readS _).bind fun _ => memRead8 _ _

theorem sourceWord : Built Machine.sourceWord := (readS _).bind fun _ => memRead16 _ _

theorem destByte : Built Machine.destByte := (readS _).bind fun _ => memRead8 _ _

theorem destWord : Built Machine.destWord := (readS _).bind fun _ => memRead16 _ _

theorem storeDestByte (v : Byte) : Built (Machine.storeDestByte v) := (readS _).bind fun _ => memWrite8 _ _ _

theorem storeDestWord (v : Word) : Built (Machine.storeDestWord v) := (readS _).bind fun _ => memWrite16 _ _ _

theorem advanceSi (n : Word) : Built (Machine.advanceSi n) := modifyCpu _

theorem advanceDi (n : Word) : Built (Machine.advanceDi n) := modifyCpu _

theorem compareFlags {w : Nat} (a b : BitVec w) : Built (Machine.compareFlags a b) := modifyFlags _

theorem movsbElement : Built Machine.movsbElement :=
  sourceByte.bind fun _ => (storeDestByte _).bind fun _ => (advanceSi _).bind fun _ => advanceDi _

theorem movswElement : Built Machine.movswElement :=
  sourceWord.bind fun _ => (storeDestWord _).bind fun _ => (advanceSi _).bind fun _ => advanceDi _

theorem cmpsbElement : Built Machine.cmpsbElement :=
  sourceByte.bind fun _ => destByte.bind fun _ => (compareFlags _ _).bind fun _ =>
    (advanceSi _).bind fun _ => advanceDi _

theorem cmpswElement : Built Machine.cmpswElement :=
  sourceWord.bind fun _ => destWord.bind fun _ => (compareFlags _ _).bind fun _ =>
    (advanceSi _).bind fun _ => advanceDi _

theorem scasbElement : Built Machine.scasbElement :=
  destByte.bind fun _ => (getReg8 _).bind fun _ => (compareFlags _ _).bind fun _ => advanceDi _

theorem scaswElement : Built Machine.scaswElement :=
  destWord.bind fun _ => (getReg16 _).bind fun _ => (compareFlags _ _).bind fun _ => advanceDi _

theorem lodsbElement : Built Machine.lodsbElement :=
  sourceByte.bind fun _ => (putReg8 _ _).bind fun _ => advanceSi _

theorem lodswElement : Built Machine.lodswElement :=
  sourceWord.bind fun _ => (putReg16 _ _).bind fun _ => advanceSi _

theorem stosbElement : Built Machine.stosbElement :=
  (getReg8 _).bind fun _ => (storeDestByte _).bind fun _ => advanceDi _

theorem stoswElement : Built Machine.stoswElement :=
  (getReg16 _).bind fun _ => (storeDestWord _).bind fun _ => advanceDi _

theorem repLoop {element : EU Unit} (he : Built element) (isCompare : Bool) (n : Nat) :
    Built (Machine.repLoop element isCompare n) := by
  induction n with
  | zero => exact pure ()
  | succ n ih =>
    exact he.bind fun _ => (modifyCpu _).bind fun _ => (readS _).bind fun _ =>
      ite (pure ()) (ite (modifyCpu _) ih)

theorem repString {element : EU Unit} (he : Built element) (isCompare : Bool) :
    Built (Machine.repString element isCompare) :=
  (readS _).bind fun _ => ite he (repLoop he _ _)

end Built

/-! ### The meaning of a unit -/

/-- The forms that the meaning of a unit takes in the state `s`: a whole instruction, the end of one that has
nothing left to do, a change of the Execution Engine's own state that goes on, or a DecodeFault. -/
inductive UnitForm (s : State) : Result → Prop
  | whole {body : EU Unit} (h : Built body) : UnitForm s (complete body s)
  | ended : UnitForm s (runEU endInstr s)
  | goesOn {f : Eu → Eu} (h : ∀ e, (f e).faulted = e.faulted ∧ (f e).halted = e.halted) :
    UnitForm s (goOn f s)
  | decodeFault : UnitForm s (decodeFault s)

namespace UnitForm

/-- An undocumented encoding is a whole instruction if it is admitted, and else a DecodeFault (R240). -/
theorem admitted {s : State} {u : UndocId} {body : EU Unit} (h : Built body) :
    UnitForm s (ifAdmitted u (complete body) s) := by
  unfold ifAdmitted
  split
  · exact whole h
  · exact decodeFault

theorem lockPrefix (s : State) : UnitForm s (Machine.lockPrefix s) := goesOn fun _ => ⟨rfl, rfl⟩

theorem lockAlias (s : State) : UnitForm s (execLockAlias s) := by
  unfold execLockAlias ifAdmitted
  split
  · exact lockPrefix s
  · exact decodeFault

theorem segPrefix (r : SReg) (s : State) : UnitForm s (Machine.segPrefix r s) := goesOn fun _ => ⟨rfl, rfl⟩

theorem repPrefix (r : Rep) (s : State) : UnitForm s (Machine.repPrefix r s) := goesOn fun _ => ⟨rfl, rfl⟩

theorem waitOp (s : State) : UnitForm s (Machine.waitOp s) := by
  unfold Machine.waitOp
  split
  · exact ended
  · exact goesOn fun _ => ⟨rfl, rfl⟩

end UnitForm

/-- The meaning of every unit takes one of the four forms. -/
theorem exec_form (i : Instr) (s : State) : UnitForm s (exec i s) := by
  cases i with
  | addEbGb | orEbGb | adcEbGb | sbbEbGb | andEbGb | subEbGb | xorEbGb | cmpEbGb =>
    exact .whole (.aluEbGb _ _ _)
  | addEwGw | orEwGw | adcEwGw | sbbEwGw | andEwGw | subEwGw | xorEwGw | cmpEwGw =>
    exact .whole (.aluEwGw _ _ _)
  | addGbEb | orGbEb | adcGbEb | sbbGbEb | andGbEb | subGbEb | xorGbEb | cmpGbEb =>
    exact .whole (.aluGbEb _ _ _)
  | addGwEw | orGwEw | adcGwEw | sbbGwEw | andGwEw | subGwEw | xorGwEw | cmpGwEw =>
    exact .whole (.aluGwEw _ _ _)
  | addAlIb | addEbIb | orAlIb | orEbIb | adcAlIb | adcEbIb | sbbAlIb | sbbEbIb | andAlIb | andEbIb
  | subAlIb | subEbIb | xorAlIb | xorEbIb | cmpAlIb | cmpEbIb => exact .whole (.aluEbIb _ _ _)
  | addAxIw | addEwIw | addEwIbs | orAxIw | orEwIw | adcAxIw | adcEwIw | adcEwIbs | sbbAxIw | sbbEwIw
  | sbbEwIbs | andAxIw | andEwIw | subAxIw | subEwIw | subEwIbs | xorAxIw | xorEwIw | cmpAxIw | cmpEwIw
  | cmpEwIbs => exact .whole (.aluEwIw _ _ _)
  | addEbIbAlias | orEbIbAlias | adcEbIbAlias | sbbEbIbAlias | andEbIbAlias | subEbIbAlias | xorEbIbAlias
  | cmpEbIbAlias => exact .admitted (.aluEbIb _ _ _)
  | orEwIbs | andEwIbs | xorEwIbs => exact .admitted (.aluEwIw _ _ _)
  | pushSreg => exact .whole (.pushSregOp _)
  | pushR16 => exact .whole (.pushR16Op _)
  | pushEw => exact .whole (.pushEwOp _)
  | pushEwAlias => exact .admitted (.pushEwOp _)
  | popSreg => exact .whole (.popSregOp _)
  | popR16 => exact .whole (.popR16Op _)
  | popEw => exact .whole (.popEwOp _)
  | popEwAlias => exact .admitted (.popEwOp _)
  | xchgEbGb => exact .whole (.xchgEbGbOp _ _)
  | xchgEwGw => exact .whole (.xchgEwGwOp _ _)
  | xchgAxR16 | sahf | lahf | cbw | cwd => exact .whole (.modifyCpu _)
  | movEbGb => exact .whole (.movEbGbOp _ _)
  | movEwGw => exact .whole (.movEwGwOp _ _)
  | movGbEb => exact .whole (.movGbEbOp _ _)
  | movGwEw => exact .whole (.movGwEwOp _ _)
  | movEwSw => exact .whole (.movEwSwOp _ _)
  | movEwSwAlias => exact .admitted (.movEwSwOp _ _)
  | movSwEw => exact .whole (.movSwEwOp _ _)
  | movSwEwAlias => exact .admitted (.movSwEwOp _ _)
  | movCsEw | leaReg | lesReg | ldsReg | shiftUndoc6 | jmpFarReg | callFarReg | feUndoc2 | feUndoc3
  | feUndoc4 | feUndoc5 | feUndoc6 | feUndoc7 | popCs => exact .decodeFault
  | movAlOb => exact .whole (.movAlObOp _)
  | movAxOw => exact .whole (.movAxOwOp _)
  | movObAl => exact .whole (.movObAlOp _)
  | movOwAx => exact .whole (.movOwAxOp _)
  | movR8Ib => exact .whole (.putReg8 _ _)
  | movR16Iw => exact .whole (.putReg16 _ _)
  | movEbIb => exact .whole (.movEbIbOp _ _)
  | movEwIw => exact .whole (.movEwIwOp _ _)
  | movEbIbAlias => exact .admitted (.movEbIbOp _ _)
  | movEwIwAlias => exact .admitted (.movEwIwOp _ _)
  | lea => exact .whole (.leaOp _ _)
  | les | lds => exact .whole (.loadFarPointer _ _ _)
  | inAlIb => exact .whole (.inAl _)
  | inAxIb => exact .whole (.inAx _)
  | outIbAl => exact .whole (.outAl _)
  | outIbAx => exact .whole (.outAx _)
  | incR16 | incEw | decR16 | decEw | negEw => exact .whole (.unary16 _ _)
  | incEb | decEb | negEb => exact .whole (.unary8 _ _)
  | notEb => exact .whole (.notEbOp _)
  | notEw => exact .whole (.notEwOp _)
  | mulEb => exact .whole (.mulEbOp _)
  | mulEw => exact .whole (.mulEwOp _)
  | imulEb => exact .whole (.imulEbOp _)
  | imulEw => exact .whole (.imulEwOp _)
  | divEb | idivEb => exact .whole (.divideByte _ _)
  | divEw | idivEw => exact .whole (.divideWord _ _)
  | aamBase => exact .admitted (.aamOp _)
  | aadBase => exact .admitted (.aadOp _)
  | testEbGb => exact .whole (.testEbGbOp _ _)
  | testEwGw => exact .whole (.testEwGwOp _ _)
  | testAlIb | testEbIb => exact .whole (.testEbIbOp _ _)
  | testAxIw | testEwIw => exact .whole (.testEwIwOp _ _)
  | testEbIbAlias => exact .admitted (.testEbIbOp _ _)
  | testEwIwAlias => exact .admitted (.testEwIwOp _ _)
  | rolEb1 | rorEb1 | rclEb1 | rcrEb1 | shlEb1 | shrEb1 | sarEb1 => exact .whole (.shift8 _ _ _)
  | rolEw1 | rorEw1 | rclEw1 | rcrEw1 | shlEw1 | shrEw1 | sarEw1 => exact .whole (.shift16 _ _ _)
  | rolEbCl | rorEbCl | rclEbCl | rcrEbCl | shlEbCl | shrEbCl | sarEbCl => exact .whole (.shiftEbCl _ _)
  | rolEwCl | rorEwCl | rclEwCl | rcrEwCl | shlEwCl | shrEwCl | sarEwCl => exact .whole (.shiftEwCl _ _)
  | jo | jno | jb | jnb | jz | jnz | jbe | ja | js | jns | jp | jnp | jl | jge | jle | jg | jcxz =>
    exact .whole (.branchIf _ _)
  | joAlias | jnoAlias | jbAlias | jnbAlias | jzAlias | jnzAlias | jbeAlias | jaAlias | jsAlias | jnsAlias
  | jpAlias | jnpAlias | jlAlias | jgeAlias | jleAlias | jgAlias => exact .admitted (.branchIf _ _)
  | jmpJb | jmpJw => exact .whole (.jumpRelative _)
  | jmpEw => exact .whole (.jmpEwOp _)
  | jmpAp => exact .whole (.jumpFar _ _)
  | jmpMp => exact .whole (.jmpMpOp _)
  | callJw => exact .whole (.callJwOp _)
  | callEw => exact .whole (.callEwOp _)
  | callAp => exact .whole (.callFar _ _)
  | callMp => exact .whole (.callMpOp _)
  | retIw | ret => exact .whole (.retIwOp _)
  | retIwAlias | retAlias => exact .admitted (.retIwOp _)
  | retfIw | retf => exact .whole (.retfIwOp _)
  | retfIwAlias | retfAlias => exact .admitted (.retfIwOp _)
  | loopne | loope | loop => exact .whole (.loopWhile _ _)
  | int | int3 => exact .whole (.enterAtIp _)
  | esc => exact .whole (.escOp _ _ _)
  | esPrefix | csPrefix | ssPrefix | dsPrefix => exact .segPrefix _ s
  | lock => exact .lockPrefix s
  | lockAlias => exact .lockAlias s
  | repne | repe => exact .repPrefix _ s
  | xlat => exact .whole .xlatOp
  | pushf => exact .whole .pushfOp
  | popf => exact .whole .popfOp
  | inAlDx => exact .whole .inAlDxOp
  | inAxDx => exact .whole .inAxDxOp
  | outDxAl => exact .whole .outDxAlOp
  | outDxAx => exact .whole .outDxAxOp
  | daa | das => exact .whole (.decimalAdjust _)
  | aaa | aas => exact .whole (.asciiAdjust _ _)
  | aam => exact .whole (.aamOp _)
  | aad => exact .whole (.aadOp _)
  | movsb => exact .whole (.repString .movsbElement false)
  | movsw => exact .whole (.repString .movswElement false)
  | cmpsb => exact .whole (.repString .cmpsbElement true)
  | cmpsw => exact .whole (.repString .cmpswElement true)
  | stosb => exact .whole (.repString .stosbElement false)
  | stosw => exact .whole (.repString .stoswElement false)
  | lodsb => exact .whole (.repString .lodsbElement false)
  | lodsw => exact .whole (.repString .lodswElement false)
  | scasb => exact .whole (.repString .scasbElement true)
  | scasw => exact .whole (.repString .scaswElement true)
  | into => exact .whole .intoOp
  | iret => exact .whole .interruptReturn
  | clc | stc | cmc | cld | std | cli => exact .whole (.modifyFlags _)
  | sti => exact .whole .stiOp
  | hlt => exact .whole .hltOp
  | wait => exact .waitOp s
  | nop => exact .whole (.pure _)
  | salc => exact .admitted (.modifyCpu _)

end Sys2Proof.Machine
end

section
/-! PROOFS. The platform of 00_scope.md R8, that is the parameters and the wiring of the slave controllers, is the
same after every tick, every piece of work and every step. -/

namespace Sys2Proof.Machine

/-- The master line and the port base of each slave controller (R8 `PIC_SLAVES`). -/
def slaveWiring (l : List Slave) : List (Bits3 × Word) := l.map fun sl => (sl.line, sl.base)

/-- What R8 fixes for a run: the parameters, and how the slave controllers are wired. -/
def platform (s : State) : Params × List (Bits3 × Word) := (s.params, slaveWiring s.pics.slaves)

/-! ### The interrupt controllers -/

@[simp] theorem mapSlave_wiring (f : Pic → Pic) (l : List Slave) (k : Nat) :
    slaveWiring (mapSlave f l k) = slaveWiring l := by
  induction l generalizing k with
  | nil => rfl
  | cons sl rest ih =>
    cases k with
    | zero => rfl
    | succ k => exact congrArg ((sl.line, sl.base) :: ·) (ih k)

@[simp] theorem picsIrq_wiring (e : IrqEvent) (ps : Pics) :
    slaveWiring (picsIrq e ps).slaves = slaveWiring ps.slaves := by
  unfold picsIrq
  split
  · split <;> rfl
  · exact mapSlave_wiring _ _ _

@[simp] theorem picsWrite_wiring (id : PicId) (dataPort : Bool) (b : Byte) (ps : Pics) :
    slaveWiring (picsWrite id dataPort b ps).slaves = slaveWiring ps.slaves := by
  cases id with
  | master => rfl
  | slave k => exact mapSlave_wiring _ _ _

@[simp] theorem picsRead_wiring (id : PicId) (dataPort : Bool) (ps : Pics) :
    slaveWiring (picsRead id dataPort ps).1.slaves = slaveWiring ps.slaves := by
  cases id with
  | master => cases dataPort <;> rfl
  | slave k =>
    unfold picsRead
    dsimp only
    cases ps.slaves[k]? with
    | none => rfl
    | some sl =>
      cases dataPort with
      | true => rfl
      | false => exact mapSlave_wiring _ _ _

theorem picsPulse1_wiring (ps : Pics) : slaveWiring (picsPulse1 ps).1.slaves = slaveWiring ps.slaves := by
  unfold picsPulse1
  cases picWinner ps.master (masterRequests ps) with
  | none => rfl
  | some j =>
    dsimp only
    cases cascadeSlave ps j with
    | none => rfl
    | some k => exact mapSlave_wiring _ _ _

theorem picsPulse2_wiring (ps : Pics) : slaveWiring (picsPulse2 ps).1.slaves = slaveWiring ps.slaves := by
  unfold picsPulse2
  split
  · split <;> exact mapSlave_wiring _ _ _
  · rfl

@[simp] theorem picsPulse_wiring (second : Bool) (ps : Pics) :
    slaveWiring (picsPulse second ps).1.slaves = slaveWiring ps.slaves := by
  cases second with
  | false => exact picsPulse1_wiring ps
  | true => exact picsPulse2_wiring ps

/-! ### Ticks -/

theorem platform_withPics {ps : Pics} {s : State} (h : slaveWiring ps.slaves = slaveWiring s.pics.slaves) :
    platform { s with pics := ps } = platform s := congrArg (Prod.mk s.params) h

@[simp] theorem resetBlock_platform (nmi : Bool) (s : State) : platform (resetBlock nmi s) = platform s := by
  simp [platform, slaveWiring, resetBlock, Function.comp_def]

@[simp] theorem drawByte_platform (s : State) : platform (drawByte s).2 = platform s := rfl

@[simp] theorem busFault_platform (kind : BusKind) (a : Nat) (s : State) :
    platform (busFault kind a s) = platform s := rfl

@[simp] theorem setBus_platform (b : Bus) (s : State) : platform (setBus b s) = platform s := rfl

@[simp] theorem nmiEdge_platform (level : Bool) (s : State) : platform (nmiEdge level s) = platform s := rfl

@[simp] theorem dropInput_platform (s : State) : platform (dropInput s) = platform s := rfl

theorem faultedState_platform (s : State) : platform (faultedState s) = platform s := rfl

@[simp] theorem sampleMemory_platform (kind : BusKind) (a : Nat) (s : State) :
    platform (sampleMemory kind a s).2 = platform s := by
  unfold sampleMemory
  split <;> rfl

@[simp] theorem depositMemory_platform (kind : BusKind) (a : Nat) (b : Byte) (s : State) :
    platform (depositMemory kind a b s) = platform s := by
  unfold depositMemory
  split <;> rfl

@[simp] theorem samplePort_platform (p : Word) (s : State) : platform (samplePort p s).2 = platform s := by
  unfold samplePort
  split
  · exact platform_withPics (picsRead_wiring _ _ _)
  · split <;> rfl

@[simp] theorem depositPort_platform (p : Word) (b : Byte) (s : State) :
    platform (depositPort p b s) = platform s := by
  unfold depositPort
  split
  · exact platform_withPics (picsWrite_wiring _ _ _ _)
  · split <;> rfl

@[simp] theorem sampleInta_platform (second : Bool) (s : State) :
    platform (sampleInta second s).2 = platform s := by
  have h : platform { s with pics := (picsPulse second s.pics).1 } = platform s :=
    platform_withPics (picsPulse_wiring second s.pics)
  unfold sampleInta
  dsimp only
  split <;> exact h

@[simp] theorem dataPhase_platform (t : Txn) (s : State) : platform (dataPhase t s).2 = platform s := by
  unfold dataPhase
  split <;> simp

@[simp] theorem finishTxn_platform (t : Txn) (s : State) : platform (finishTxn t s) = platform s := by
  unfold finishTxn
  split
  · split <;> rfl
  · rfl

@[simp] theorem arbitrate_platform (hold : Bool) (s : State) : platform (arbitrate hold s) = platform s := by
  unfold arbitrate
  split
  · rfl
  · split
    · rfl
    · split <;> rfl

@[simp] theorem busStep_platform (hold : Bool) (s : State) : platform (busStep hold s) = platform s := by
  unfold busStep
  split
  · exact arbitrate_platform hold s
  · split <;> rfl
  · split <;> simp

@[simp] theorem dmaAccess_platform (x : DmaAccess) (s : State) : platform (dmaAccess x s) = platform s := by
  cases x with
  | writeMemory a b =>
    unfold dmaAccess
    dsimp only
    split <;> simp
  | readPort p =>
    unfold dmaAccess
    dsimp only
    split
    · exact platform_withPics (picsRead_wiring _ _ _)
    · rfl
  | writePort p b =>
    unfold dmaAccess
    dsimp only
    split <;> simp

theorem dmaAccesses_platform (l : List DmaAccess) (s : State) : platform (dmaAccesses l s) = platform s := by
  induction l generalizing s with
  | nil => rfl
  | cons x rest ih => exact (ih _).trans (dmaAccess_platform x s)

@[simp] theorem holdAccesses_platform (l : List DmaAccess) (s : State) :
    platform (holdAccesses l s) = platform s := by
  unfold holdAccesses
  split
  · exact dmaAccesses_platform l s
  · rfl

@[simp] theorem irqEvents_platform (l : List IrqEvent) (s : State) : platform (irqEvents l s) = platform s := by
  induction l generalizing s with
  | nil => rfl
  | cons e rest ih => exact (ih _).trans (platform_withPics (picsIrq_wiring e s.pics))

/-- The bus step of a tick and the HOLD requester's accesses at its end (R138). -/
theorem tickEnd_platform (i : TickIn) (s : State) :
    platform (holdAccesses i.dma (if frozen s then s else busStep i.hold (nmiEdge i.nmi s))) = platform s := by
  rw [holdAccesses_platform]
  split
  · rfl
  · rw [busStep_platform, nmiEdge_platform]

theorem tick_platform (i : TickIn) (s : State) : platform (tick i s) = platform s := by
  have hstop : ∀ u : State, platform (if i.stop then { u with stopped := true } else u) = platform u := by
    intro u
    split <;> rfl
  unfold tick
  cases i.reset with
  | true => exact resetBlock_platform _ _
  | false => exact (tickEnd_platform i _).trans ((hstop _).trans (irqEvents_platform _ _))

@[simp] theorem nextTick_platform (s : State) : platform (nextTick s) = platform s :=
  tick_platform (nextInput s) (dropInput s)

/-! ### Pieces of work -/

/-- `m` keeps the platform, whether it runs to its end or is abandoned. -/
def KeepsPlatform {α : Type} (m : EU α) : Prop :=
  ∀ s, match m s with
    | .ok _ t => platform t = platform s
    | .error _ t => platform t = platform s

namespace KeepsPlatform

theorem pure {α : Type} (a : α) : KeepsPlatform (Pure.pure a : EU α) := fun _ => rfl

theorem throw {α : Type} (e : Abort) : KeepsPlatform (MonadExcept.throw e : EU α) := fun _ => rfl

theorem readS {α : Type} (f : State → α) : KeepsPlatform (Machine.readS f) := fun _ => rfl

theorem modifyS {f : State → State} (h : ∀ s, platform (f s) = platform s) :
    KeepsPlatform (Machine.modifyS f) := h

theorem modifyEu (f : Eu → Eu) : KeepsPlatform (Machine.modifyEu f) := fun _ => rfl

theorem bind {α β : Type} {m : EU α} {f : α → EU β} (hm : KeepsPlatform m) (hf : ∀ a, KeepsPlatform (f a)) :
    KeepsPlatform (m >>= f) := by
  intro s
  have h := hm s
  simp only [Bind.bind, EStateM.bind]
  cases hr : m s with
  | error e t =>
    rw [hr] at h
    exact h
  | ok a t =>
    rw [hr] at h
    have ha := hf a t
    dsimp only at h ha ⊢
    rw [← h]
    exact ha

theorem passTick : KeepsPlatform passTick := by
  intro s
  unfold Machine.passTick
  cases (nextInput s).reset with
  | true => exact nextTick_platform s
  | false => cases frozen (nextTick s) <;> exact nextTick_platform s

theorem awaitBus (n : Nat) : KeepsPlatform (awaitBus n) := by
  induction n with
  | zero => exact throw _
  | succ n ih =>
    refine passTick.bind fun _ => (readS _).bind fun b => ?_
    cases b with
    | none => exact ih
    | some b => exact pure b

theorem busAccess (r : Request) : KeepsPlatform (busAccess r) := by
  refine (modifyS ?_).bind fun _ => (readS _).bind fun n => awaitBus n
  exact fun _ => rfl

/-- A piece of work keeps the platform, because the primitives it is built from do. -/
theorem of_built {α : Type} {m : EU α} (h : Built m) : KeepsPlatform m := by
  induction h with
  | pure a => exact pure a
  | bind _ _ hm hf => exact bind hm hf
  | readS f => exact readS f
  | modifyCpu f => exact modifyS fun _ => rfl
  | modifyEu _ => exact modifyEu _
  | drawBit => exact fun _ => rfl
  | busAccess r => exact busAccess r
  | jump off => exact modifyS fun _ => rfl
  | jumpFar seg off => exact modifyS fun _ => rfl
  | setLockOut b => exact modifyS fun _ => rfl

theorem endInstr : KeepsPlatform endInstr := modifyS fun _ => rfl

theorem takeByte (n : Nat) : KeepsPlatform (takeByte n) := by
  induction n with
  | zero => exact throw _
  | succ n ih =>
    refine (readS _).bind fun b => ?_
    split
    · exact passTick.bind fun _ => ih
    · rw [settle_eq]
      refine (modifyS ?_).bind fun _ => pure _
      exact fun _ => rfl

theorem fetchByte : KeepsPlatform fetchByte := (readS _).bind fun n => takeByte n

theorem fetchUnit (n : Nat) (bytes : List Byte) : KeepsPlatform (fetchUnit n bytes) := by
  induction n generalizing bytes with
  | zero => exact throw _
  | succ n ih =>
    refine fetchByte.bind fun b => (readS _).bind fun s => ?_
    split
    · exact (modifyS faultedState_platform).bind fun _ => pure none
    · refine (modifyEu (dropRep (bytes ++ [b]))).bind fun _ => ?_
      split
      · exact pure _
      · exact ih _

end KeepsPlatform

/-! ### Steps -/

/-- If the result is a next state, its platform is that of `s`. -/
def OnPlatformOf (s : State) (r : Result) : Prop := ∀ t, r = .next t → platform t = platform s

theorem onPlatformOf_next {s t : State} (h : platform t = platform s) : OnPlatformOf s (.next t) := by
  intro u hu
  cases hu
  exact h

theorem onPlatformOf_fault (s : State) (f : Fault) : OnPlatformOf s (.fault f) := by
  intro t ht
  cases ht

theorem onPlatformOf_runEU {m : EU Unit} (hm : KeepsPlatform m) (s : State) : OnPlatformOf s (runEU m s) := by
  have h := hm s
  unfold runEU
  cases hr : m s with
  | ok a t =>
    rw [hr] at h
    exact onPlatformOf_next h
  | error e t =>
    rw [hr] at h
    cases e with
    | reset => exact onPlatformOf_next h
    | frozen => exact onPlatformOf_next h
    | timeout => exact onPlatformOf_fault s _

theorem onPlatformOf_complete {body : EU Unit} (hb : KeepsPlatform body) (s : State) :
    OnPlatformOf s (complete body s) := by
  have hend : KeepsPlatform (do body; endInstr) := hb.bind fun _ => .endInstr
  unfold complete
  cases s.eu.lock with
  | false => exact onPlatformOf_runEU hend s
  | true => exact onPlatformOf_runEU ((KeepsPlatform.of_built (.setLockOut true)).bind fun _ => hend) s

theorem UnitForm.onPlatformOf {s : State} {r : Result} (h : UnitForm s r) : OnPlatformOf s r := by
  cases h with
  | whole hb => exact onPlatformOf_complete (.of_built hb) s
  | ended => exact onPlatformOf_runEU .endInstr s
  | goesOn _ => exact onPlatformOf_next rfl
  | decodeFault => exact onPlatformOf_next rfl

/-- What the machine does next begins, or ends, on the platform of `s`. -/
def NextOnPlatformOf (s : State) : Next → Prop
  | .run _ t => platform t = platform s
  | .answer r => OnPlatformOf s r

theorem fetchNext_onPlatform (s : State) : NextOnPlatformOf s (fetchNext s) := by
  have h := KeepsPlatform.fetchUnit 6 [] s
  unfold fetchNext
  cases hr : fetchUnit 6 [] s with
  | ok i t =>
    rw [hr] at h
    cases i with
    | some i => exact h
    | none => exact onPlatformOf_next h
  | error e t =>
    rw [hr] at h
    cases e with
    | reset => exact onPlatformOf_next h
    | frozen => exact onPlatformOf_next h
    | timeout => exact onPlatformOf_fault s _

theorem boundaryEntry_onPlatform (w : Work) {vector : EU Byte} (hv : Built vector) (s : State) :
    OnPlatformOf s (boundaryEntry w vector s) :=
  onPlatformOf_runEU
    ((KeepsPlatform.modifyEu _).bind fun _ => (KeepsPlatform.of_built hv).bind fun _ =>
      (KeepsPlatform.of_built (.enterAtIp _)).bind fun _ => .endInstr)
    (beginWork w s)

theorem haltStep_onPlatform (s : State) : OnPlatformOf s (haltStep s) := by
  unfold haltStep
  split
  · exact onPlatformOf_fault s _
  · exact onPlatformOf_next (nextTick_platform s)

theorem proceed_onPlatform (s : State) : NextOnPlatformOf s (proceed s) := by
  unfold proceed
  split
  · exact haltStep_onPlatform s
  · exact fetchNext_onPlatform (beginInstr s)

theorem boundary_onPlatform (s : State) : NextOnPlatformOf s (boundary s) := by
  unfold boundary
  split
  · exact proceed_onPlatform { s with eu := { s.eu with shadow := false } }
  · split
    · exact boundaryEntry_onPlatform .nmi (.pure 2) { s with nmiLatch := false }
    · split
      · exact boundaryEntry_onPlatform .intr .intaSequence s
      · split
        · exact boundaryEntry_onPlatform .trap (.pure 1) s
        · exact proceed_onPlatform s

theorem waitStep_onPlatform (s : State) : OnPlatformOf s (waitStep s) := by
  have ht := nextTick_platform s
  unfold waitStep
  dsimp only
  split
  · exact onPlatformOf_next ht
  · split
    · exact onPlatformOf_next ht
    · split
      · have hend := onPlatformOf_runEU .endInstr
          { nextTick s with eu := { (nextTick s).eu with waiting := false } }
        exact fun t h => (hend t h).trans ht
      · exact onPlatformOf_next ht

theorem frozenStep_onPlatform (s : State) : OnPlatformOf s (frozenStep s) := by
  unfold frozenStep
  split
  · split <;> exact onPlatformOf_fault s _
  · exact onPlatformOf_next (nextTick_platform s)

theorem nextUnit_onPlatform (s : State) : NextOnPlatformOf s (nextUnit s) := by
  unfold nextUnit
  split
  · exact frozenStep_onPlatform s
  · split
    · exact waitStep_onPlatform s
    · split
      · exact boundary_onPlatform s
      · exact fetchNext_onPlatform s

theorem step_onPlatform (s : State) : OnPlatformOf s (step s) := by
  have h := nextUnit_onPlatform s
  unfold step
  cases hn : nextUnit s with
  | answer r =>
    rw [hn] at h
    exact h
  | run i t =>
    rw [hn] at h
    exact fun u hu => ((exec_form i t).onPlatformOf u hu).trans h

/-- Settles O5: every tick, every primitive operation of the Execution Engine and every form that a unit's meaning
takes keeps the platform, so every step does. -/
theorem parametersFixed : Obligations.ParametersFixed := by
  intro s t h
  exact Prod.mk.inj (step_onPlatform s t h)

end Sys2Proof.Machine
end

section
/-! PROOFS. The reset state of R90 and R853: what a tick with RESET leaves, and that it satisfies the invariant;
and the FLAGS image of R62. -/

namespace Sys2Proof.Machine

open Sys2Proof.Claims

/-! ### Reset -/

/-- RESET leaves no other effect of its tick than the TEST level remembered (R950). -/
theorem tick_of_reset {i : TickIn} (h : i.reset = true) (s : State) :
    tick i s = resetBlock i.nmi { s with env := { s.env with test := i.test } } := if_pos h

theorem picReset_eq_picAtReset (p : Pic) : p.reset = picAtReset p := by
  unfold Pic.reset picAtReset
  cases p.isr <;> rfl

theorem resetSlaves_eq (l : List Slave) :
    l.map (fun sl => { sl with pic := sl.pic.reset }) = l.map fun sl => ⟨sl.line, sl.base, picAtReset sl.pic⟩ :=
  List.map_congr_left fun sl _ => by rw [picReset_eq_picAtReset]

/-- Settles O1: a tick with RESET is `resetBlock`, whose fields are the reset values; a controller's are
`picAtReset`. -/
theorem resetTick : Obligations.ResetTick := by
  intro i s h
  rw [tick_of_reset h]
  have hmaster := picReset_eq_picAtReset s.pics.master
  have hslaves := resetSlaves_eq s.pics.slaves
  exact ⟨rfl, rfl, rfl, rfl, rfl, rfl, rfl, rfl, rfl, rfl, rfl, rfl, rfl, rfl, rfl, rfl, rfl, rfl, hmaster, hslaves,
    rfl, rfl, rfl⟩

/-- Settles O2: nothing is stored, the Bus Cycle Engine is in its reset state, and the Execution Engine is idle at
a boundary. -/
theorem resetInvariant : Obligations.ResetInvariant := by
  have hidle : EuIdle State.reset := ⟨rfl, rfl⟩
  exact ⟨rfl, rfl, biuReset_wf, fun _ => ⟨hidle, rfl, fun _ => rfl, rfl⟩⟩

/-! ### The FLAGS image -/

/-- The nine parts of the image share no bit, so their union is their sum: checked for the 512 values of the flags. -/
theorem flagsWord_eq_weights (f : Flags) :
    flagsWord f =
      BitVec.ofNat 16 (0xF002 + 2048 * f.ovf.toNat + 1024 * f.df.toNat + 512 * f.intf.toNat +
        256 * f.tf.toNat + 128 * f.sf.toNat + 64 * f.zf.toNat + 16 * f.af.toNat + 4 * f.pf.toNat +
        f.cf.toNat) := by
  obtain ⟨cf, pf, af, zf, sf, tf, intf, df, ovf⟩ := f
  revert cf pf af zf sf tf intf df ovf
  decide

/-- Each flag is read back from the one bit of the image that it sets. -/
theorem setFlagsWord_flagsWord (f : Flags) : setFlagsWord (flagsWord f) = f := by
  cases f
  simp [setFlagsWord, flagsWord]

/-- Settles O11. -/
theorem flagsImage : Obligations.FlagsImage :=
  fun f => ⟨flagsWord_eq_weights f, setFlagsWord_flagsWord f, fun _ => rfl⟩

end Sys2Proof.Machine
end

section
/-! PROOFS. Decoding undoes encoding (R200, R201): one lemma for each shape of the bytes that follow an opcode, and
the units sorted by shape. -/

namespace Sys2Proof

/-! ### The shapes of an encoding -/

section Shapes

variable {op : Byte} {i : Instr} {reg : Bits3} {f : Bits2 → Bits3 → Bits3 → Tail}

theorem decode_op (ho : opEntry op = .op i) : decode [op] = .done i [] := by
  simp [decode, ho, decodeEntry]

theorem decode_ib {g : Byte → Instr} {b : Byte} (ho : opEntry op = .ib g) (hg : g b = i) :
    decode [op, b] = .done i [] := by
  simp [decode, ho, decodeEntry, decodeIb, hg]

theorem decode_iw {g : Word → Instr} (w : Word) (ho : opEntry op = .iw g) :
    decode (op :: wordBytes w) = .done (g w) [] := by
  simp [decode, ho, decodeEntry, wordBytes, decodeIw, wordOf_wordBytes]

theorem decode_ap {g : Word → Word → Instr} (off sel : Word) (ho : opEntry op = .ap g) :
    decode (op :: (wordBytes off ++ wordBytes sel)) = .done (g off sel) [] := by
  simp [decode, ho, decodeEntry, wordBytes, decodeAp, wordOf_wordBytes]

/-- After an opcode with a ModRM byte, that byte's fields select what follows. -/
theorem decode_modrm (ho : opEntry op = .modrm f) (mode : Bits2) (rm : Bits3) (tail : List Byte) :
    decode (op :: modrmByte mode reg rm :: tail) = decodeTail mode rm (f mode reg rm) tail := by
  simp [decode, ho, decodeEntry, modOf_modrmByte, regOf_modrmByte, rmOf_modrmByte]

theorem decode_stop {mode : Bits2} {rm : Bits3} (ho : opEntry op = .modrm f) (hf : f mode reg rm = .stop i) :
    decode [op, modrmByte mode reg rm] = .done i [] := by
  rw [decode_modrm ho, hf]
  rfl

theorem decode_mem {g : MemOp → Instr} {m : MemOp} (ho : opEntry op = .modrm f)
    (hf : ∀ mode rm, mode ≠ 3 → f mode reg rm = .mem g) (h : m.wf = true) (hg : g m = i) :
    decode (op :: encMem reg m) = .done i [] := by
  obtain ⟨mode, rm, tail, he, hmode, hd⟩ := decodeMem_encMem reg m h
  have hd := hd []
  rw [List.append_nil] at hd
  rw [he, decode_modrm ho, hf _ _ hmode]
  simp [decodeTail, hd, hg]

theorem decode_rm8 {g : Rm Reg8 → Instr} {e : Rm Reg8} (ho : opEntry op = .modrm f)
    (hf : ∀ mode rm, f mode reg rm = .e8 g) (h : e.wf = true) (hg : g e = i) :
    decode (op :: encRm8 reg e) = .done i [] := by
  obtain ⟨mode, rm, tail, he, hd⟩ := decodeRm_encRm8 reg e h
  have hd := hd []
  rw [List.append_nil] at hd
  rw [he, decode_modrm ho, hf]
  simp [decodeTail, hd, hg]

theorem decode_rm16 {g : Rm Reg16 → Instr} {e : Rm Reg16} (ho : opEntry op = .modrm f)
    (hf : ∀ mode rm, f mode reg rm = .e16 g) (h : e.wf = true) (hg : g e = i) :
    decode (op :: encRm16 reg e) = .done i [] := by
  obtain ⟨mode, rm, tail, he, hd⟩ := decodeRm_encRm16 reg e h
  have hd := hd []
  rw [List.append_nil] at hd
  rw [he, decode_modrm ho, hf]
  simp [decodeTail, hd, hg]

theorem decode_rm8_ib {g : Rm Reg8 → Byte → Instr} {e : Rm Reg8} {b : Byte} (ho : opEntry op = .modrm f)
    (hf : ∀ mode rm, f mode reg rm = .e8ib g) (h : e.wf = true) (hg : g e b = i) :
    decode (op :: (encRm8 reg e ++ [b])) = .done i [] := by
  obtain ⟨mode, rm, tail, he, hd⟩ := decodeRm_encRm8 reg e h
  rw [he, List.cons_append, decode_modrm ho, hf]
  simp [decodeTail, hd, decodeIb, hg]

theorem decode_rm16_ib {g : Rm Reg16 → Byte → Instr} {e : Rm Reg16} {b : Byte} (ho : opEntry op = .modrm f)
    (hf : ∀ mode rm, f mode reg rm = .e16ib g) (h : e.wf = true) (hg : g e b = i) :
    decode (op :: (encRm16 reg e ++ [b])) = .done i [] := by
  obtain ⟨mode, rm, tail, he, hd⟩ := decodeRm_encRm16 reg e h
  rw [he, List.cons_append, decode_modrm ho, hf]
  simp [decodeTail, hd, decodeIb, hg]

theorem decode_rm16_iw {g : Rm Reg16 → Word → Instr} {e : Rm Reg16} {w : Word} (ho : opEntry op = .modrm f)
    (hf : ∀ mode rm, f mode reg rm = .e16iw g) (h : e.wf = true) (hg : g e w = i) :
    decode (op :: (encRm16 reg e ++ wordBytes w)) = .done i [] := by
  obtain ⟨mode, rm, tail, he, hd⟩ := decodeRm_encRm16 reg e h
  rw [he, List.cons_append, decode_modrm ho, hf]
  simp [decodeTail, hd, wordBytes, decodeIw, wordOf_wordBytes, hg]

end Shapes

/-- The eight opcodes of ESC hold three bits of the coprocessor opcode (R242). -/
theorem opEntry_esc (op : Bits3) : opEntry (opcodeReg 0xD8#8 op) = escEntry op := by
  have hop : op = 0 ∨ op = 1 ∨ op = 2 ∨ op = 3 ∨ op = 4 ∨ op = 5 ∨ op = 6 ∨ op = 7 := by
    revert op
    decide
  rcases hop with rfl | rfl | rfl | rfl | rfl | rfl | rfl | rfl <;> rfl

/-! ### Every unit -/

/-- A well-formed unit is read back from its encoding. -/
theorem decode_encode {i : Instr} (h : i.wf = true) : decode (encode i) = .done i [] := by
  cases i with
  -- an opcode byte alone
  | esPrefix | csPrefix | ssPrefix | dsPrefix | lock | lockAlias | repne | repe | popCs | xlat | pushf | popf | sahf
  | lahf | inAlDx | inAxDx | outDxAl | outDxAx | daa | das | aaa | aas | cbw | cwd | movsb | movsw | cmpsb | cmpsw
  | stosb | stosw | lodsb | lodsw | scasb | scasw | ret | retAlias | retf | retfAlias | int3 | into | iret | clc | stc
  | cmc | cld | std | cli | sti | hlt | wait | nop | salc => exact decode_op rfl
  -- a register code in the opcode byte
  | pushR16 r | popR16 r | incR16 r | decR16 r => cases r <;> exact decode_op rfl
  | pushSreg r => cases r <;> exact decode_op rfl
  | popSreg r =>
    cases r with
    | cs => cases h
    | es | ss | ds => exact decode_op rfl
  | xchgAxR16 r =>
    cases r with
    | ax => cases h
    | cx | dx | bx | sp | bp | si | di => exact decode_op rfl
  | movR8Ib r => cases r <;> exact decode_ib rfl rfl
  | movR16Iw r imm => cases r <;> exact decode_iw imm rfl
  | esc op reg e => exact decode_rm16 (opEntry_esc op) (fun _ _ => rfl) h rfl
  -- an immediate, an offset or a displacement
  | addAlIb | orAlIb | adcAlIb | sbbAlIb | andAlIb | subAlIb | xorAlIb | cmpAlIb | testAlIb | inAlIb | inAxIb | outIbAl
  | outIbAx | jo | jno | jb | jnb | jz | jnz | jbe | ja | js | jns | jp | jnp | jl | jge | jle | jg | joAlias | jnoAlias
  | jbAlias | jnbAlias | jzAlias | jnzAlias | jbeAlias | jaAlias | jsAlias | jnsAlias | jpAlias | jnpAlias | jlAlias
  | jgeAlias | jleAlias | jgAlias | jmpJb | loopne | loope | loop | jcxz | int | aam | aad => exact decode_ib rfl rfl
  | aamBase | aadBase => exact decode_ib rfl (if_neg (by simpa [Instr.wf] using h))
  | addAxIw w | orAxIw w | adcAxIw w | sbbAxIw w | andAxIw w | subAxIw w | xorAxIw w | cmpAxIw w | testAxIw w
  | movAlOb w | movAxOw w | movObAl w | movOwAx w | jmpJw w | callJw w | retIw w | retIwAlias w | retfIw w
  | retfIwAlias w =>
    exact decode_iw w rfl
  | jmpAp off sel | callAp off sel => exact decode_ap off sel rfl
  -- a byte r/m operand
  | addEbGb _ r | orEbGb _ r | adcEbGb _ r | sbbEbGb _ r | andEbGb _ r | subEbGb _ r | xorEbGb _ r | cmpEbGb _ r
  | testEbGb _ r | xchgEbGb _ r | movEbGb _ r
  | addGbEb r | orGbEb r | adcGbEb r | sbbGbEb r | andGbEb r | subGbEb r | xorGbEb r | cmpGbEb r | movGbEb r =>
    exact decode_rm8 rfl (fun _ _ => rfl) h (by rw [reg8_ofCode_code])
  | incEb | decEb | notEb | negEb | mulEb | imulEb | divEb | idivEb | rolEb1 | rorEb1 | rclEb1 | rcrEb1 | shlEb1
  | shrEb1 | sarEb1 | rolEbCl | rorEbCl | rclEbCl | rcrEbCl | shlEbCl | shrEbCl | sarEbCl =>
    exact decode_rm8 rfl (fun _ _ => rfl) h rfl
  | addEbIb | orEbIb | adcEbIb | sbbEbIb | andEbIb | subEbIb | xorEbIb | cmpEbIb | addEbIbAlias | orEbIbAlias
  | adcEbIbAlias | sbbEbIbAlias | andEbIbAlias | subEbIbAlias | xorEbIbAlias | cmpEbIbAlias | movEbIb | testEbIb
  | testEbIbAlias => exact decode_rm8_ib rfl (fun _ _ => rfl) h rfl
  | movEbIbAlias =>
    obtain ⟨hsel, hdst⟩ : _ ≠ _ ∧ _ := by simpa [Instr.wf] using h
    exact decode_rm8_ib rfl (fun _ _ => rfl) hdst (if_neg hsel)
  -- a word r/m operand
  | addEwGw _ r | orEwGw _ r | adcEwGw _ r | sbbEwGw _ r | andEwGw _ r | subEwGw _ r | xorEwGw _ r | cmpEwGw _ r
  | testEwGw _ r | xchgEwGw _ r | movEwGw _ r
  | addGwEw r | orGwEw r | adcGwEw r | sbbGwEw r | andGwEw r | subGwEw r | xorGwEw r | cmpGwEw r | movGwEw r =>
    exact decode_rm16 rfl (fun _ _ => rfl) h (by rw [reg16_ofCode_code])
  | incEw | decEw | notEw | negEw | mulEw | imulEw | divEw | idivEw | rolEw1 | rorEw1 | rclEw1 | rcrEw1 | shlEw1
  | shrEw1 | sarEw1 | rolEwCl | rorEwCl | rclEwCl | rcrEwCl | shlEwCl | shrEwCl | sarEwCl | pushEw | pushEwAlias | popEw
  | jmpEw | callEw => exact decode_rm16 rfl (fun _ _ => rfl) h rfl
  | addEwIbs | orEwIbs | adcEwIbs | sbbEwIbs | andEwIbs | subEwIbs | xorEwIbs | cmpEwIbs =>
    exact decode_rm16_ib rfl (fun _ _ => rfl) h rfl
  | addEwIw | orEwIw | adcEwIw | sbbEwIw | andEwIw | subEwIw | xorEwIw | cmpEwIw | movEwIw | testEwIw | testEwIwAlias =>
    exact decode_rm16_iw rfl (fun _ _ => rfl) h rfl
  | popEwAlias =>
    obtain ⟨hsel, hdst⟩ : _ ≠ _ ∧ _ := by simpa [Instr.wf] using h
    exact decode_rm16 rfl (fun _ _ => rfl) hdst (if_neg hsel)
  | movEwIwAlias =>
    obtain ⟨hsel, hdst⟩ : _ ≠ _ ∧ _ := by simpa [Instr.wf] using h
    exact decode_rm16_iw rfl (fun _ _ => rfl) hdst (if_neg hsel)
  | movEwSw _ r | movEwSwAlias _ r => cases r <;> exact decode_rm16 rfl (fun _ _ => rfl) h rfl
  | movSwEw r | movSwEwAlias r =>
    cases r with
    | cs => cases h
    | es | ss | ds => exact decode_rm16 rfl (fun _ _ => rfl) h rfl
  -- a memory operand only
  | lea r | les r | lds r =>
    exact decode_mem rfl (fun _ _ hmode => if_neg hmode) h (by rw [reg16_ofCode_code])
  | jmpMp | callMp => exact decode_mem rfl (fun _ _ hmode => if_neg hmode) h rfl
  -- an encoding without a meaning, complete with its ModRM byte
  | leaReg g e | lesReg g e | ldsReg g e =>
    refine decode_stop rfl ((if_pos rfl).trans ?_)
    rw [reg16_ofCode_code, reg16_ofCode_code]
  | jmpFarReg e | callFarReg e => cases e <;> exact decode_stop rfl rfl
  | movCsEw hi => cases hi <;> exact decode_stop rfl rfl
  | shiftUndoc6 byCl wide => cases byCl <;> cases wide <;> exact decode_stop rfl rfl
  | feUndoc2 | feUndoc3 | feUndoc4 | feUndoc5 | feUndoc6 | feUndoc7 => exact decode_stop rfl rfl

end Sys2Proof
end

section
/-! PROOFS. The fetch of a unit that the queue holds (R201): it takes the unit's bytes and no more, and no tick
passes. -/

namespace Sys2Proof

/-! ### The bytes of one unit -/

/-- The bytes of a unit are not whole before the last. -/
theorem decode_more_of_proper {taken todo : List Byte} {i : Instr} (h : decode (taken ++ todo) = .done i [])
    (htodo : todo ≠ []) : decode taken = .more := by
  cases hd : decode taken with
  | more => rfl
  | done j left =>
    rw [decode_append hd todo] at h
    injection h with _ hleft
    exact absurd (List.append_eq_nil_iff.mp hleft).2 htodo

/-- A unit has at most six bytes (R245). -/
theorem length_le_six {bytes : List Byte} {i : Instr} (h : decode bytes = .done i []) : bytes.length ≤ 6 := by
  by_contra hlen
  have hwhole : decode (bytes.take 6) ≠ .more :=
    Machine.decode_six (by rw [List.length_take]; omega)
  refine hwhole (decode_more_of_proper (todo := bytes.drop 6) (by rwa [List.take_append_drop]) ?_)
  rw [ne_eq, List.drop_eq_nil_iff]
  omega

end Sys2Proof

namespace Sys2Proof.Machine

open Sys2Proof.Claims

/-! ### One byte -/

theorem fetchByte_cons {s : State} {b : Byte} {rest : List Byte} (h : s.biu.queue = b :: rest) :
    fetchByte s = .ok b (tookByte b rest s) :=
  takeByte_cons (n := 6 * s.env.inputs.length + 15) h

/-- U15 looks at a unit's first byte and at its first two; each further byte only adds its own look (R201). -/
theorem repAfter_snoc (taken : List Byte) (b : Byte) (r : Rep) :
    repAfter (taken ++ [b]) r = if refusesRep (taken ++ [b]) then .none else repAfter taken r := by
  rcases taken with _ | ⟨a, _ | ⟨c, more⟩⟩
  · simp [repAfter, refusesRep]
  · show (if refusesRep [a] || refusesRep [a, b] then Rep.none else r) =
      if refusesRep [a, b] then .none else if refusesRep [a] || refusesRep [a] then .none else r
    cases refusesRep [a] <;> cases refusesRep [a, b] <;> rfl
  · simp [repAfter, refusesRep]

theorem repAfter_eq_or_none (bytes : List Byte) (r : Rep) : repAfter bytes r = r ∨ repAfter bytes r = .none := by
  unfold repAfter
  split
  · exact .inr rfl
  · exact .inl rfl

/-! ### The whole unit -/

/-- The state in which the bytes `taken` of a unit have left the queue, `rest` being left in it. -/
def midUnit (s : State) (taken rest : List Byte) : State :=
  { s with
    biu := { s.biu with queue := rest }
    cpu := { s.cpu with ip := s.cpu.ip + BitVec.ofNat 16 taken.length }
    eu := { s.eu with fetched := s.eu.fetched ++ taken, rep := repAfter taken s.eu.rep } }

theorem midUnit_nil (s : State) : midUnit s [] s.biu.queue = s := by
  simp [midUnit, repAfter, refusesRep]

theorem tookUnit_eq_midUnit (s : State) (i : Instr) (rest : List Byte) :
    tookUnit s i rest = beginWork (.unit i) (midUnit s (encode i) rest) := rfl

/-- One more byte of the unit. -/
theorem midUnit_snoc (s : State) (taken : List Byte) (b : Byte) (rest : List Byte) :
    { tookByte b rest (midUnit s taken (b :: rest)) with
      eu := dropRep (taken ++ [b]) (tookByte b rest (midUnit s taken (b :: rest))).eu } =
      midUnit s (taken ++ [b]) rest := by
  have hip : s.cpu.ip + BitVec.ofNat 16 taken.length + 1 = s.cpu.ip + BitVec.ofNat 16 (taken ++ [b]).length := by
    rw [BitVec.add_assoc, List.length_append, BitVec.ofNat_add]
    rfl
  simp only [tookByte, midUnit, dropRep, hip, repAfter_snoc, List.append_assoc]
  split <;> rfl

theorem mustFault_tookByte (b : Byte) (rest : List Byte) (s : State) (bytes : List Byte) :
    mustFault (tookByte b rest s) bytes = mustFault s bytes := rfl

/-- In the middle of a unit REP or REPNE may have been dropped, which makes no encoding fault. -/
theorem mustFault_midUnit {s : State} {bytes : List Byte} (taken rest : List Byte)
    (h : mustFault s bytes = false) : mustFault (midUnit s taken rest) bytes = false := by
  obtain ⟨hundoc, hrep⟩ := Bool.or_eq_false_iff.mp h
  refine Bool.or_eq_false_iff.mpr ⟨hundoc, ?_⟩
  show (refusesRep bytes && repAfter taken s.eu.rep != .none && !admits s.params .u15) = false
  rcases repAfter_eq_or_none taken s.eu.rep with hr | hr
  · rw [hr]
    exact hrep
  · simp [hr]

/-- A round of the fetch loop that takes the unit's last byte. -/
theorem fetchUnit_last {s : State} {i : Instr} {taken rest left : List Byte} {b : Byte} (n : Nat)
    (hfault : mustFault s (taken ++ [b]) = false) (hdec : decode (taken ++ [b]) = .done i left) :
    fetchUnit (n + 1) taken (midUnit s taken (b :: rest)) = .ok (some i) (midUnit s (taken ++ [b]) rest) := by
  rw [fetchUnit_succ, fetchByte_cons rfl]
  simp only [mustFault_tookByte, mustFault_midUnit _ _ hfault, hdec, Bool.false_eq_true, if_false, midUnit_snoc]

/-- A round of the fetch loop that takes a byte before the last. -/
theorem fetchUnit_more {s : State} {taken rest : List Byte} {b : Byte} (n : Nat)
    (hfault : mustFault s (taken ++ [b]) = false) (hdec : decode (taken ++ [b]) = .more) :
    fetchUnit (n + 1) taken (midUnit s taken (b :: rest)) =
      fetchUnit n (taken ++ [b]) (midUnit s (taken ++ [b]) rest) := by
  rw [fetchUnit_succ, fetchByte_cons rfl]
  simp only [mustFault_tookByte, mustFault_midUnit _ _ hfault, hdec, Bool.false_eq_true, if_false, midUnit_snoc]

/-- The fetch loop from the middle of a unit: the bytes `todo` are still in the queue. -/
theorem fetchUnit_midUnit {s : State} {i : Instr} {rest todo : List Byte} {n : Nat} (taken : List Byte)
    (htodo : todo ≠ []) (hlen : todo.length ≤ n) (hdec : decode (taken ++ todo) = .done i [])
    (hfault : ∀ bs, bs <+: taken ++ todo → mustFault s bs = false) :
    fetchUnit n taken (midUnit s taken (todo ++ rest)) = .ok (some i) (midUnit s (taken ++ todo) rest) := by
  induction todo generalizing n taken with
  | nil => exact absurd rfl htodo
  | cons b todo ih =>
    cases n with
    | zero => exact absurd hlen (Nat.not_succ_le_zero _)
    | succ n =>
      rw [List.append_cons] at hdec hfault ⊢
      have hb := hfault (taken ++ [b]) (List.prefix_append _ _)
      by_cases hlast : todo = []
      · subst hlast
        rw [List.append_nil] at hdec ⊢
        exact fetchUnit_last n hb hdec
      · rw [List.cons_append, fetchUnit_more n hb (decode_more_of_proper hdec hlast)]
        exact ih _ hlast (Nat.le_of_succ_le_succ hlen) hdec hfault

/-- A unit that the queue holds, and none of whose bytes must fault, is the one to run. -/
theorem fetchNext_of_queue {s : State} {i : Instr} {rest : List Byte} (hwf : i.wf = true)
    (hq : s.biu.queue = encode i ++ rest) (hfault : ∀ bs, bs <+: encode i → mustFault s bs = false) :
    fetchNext s = .run i (tookUnit s i rest) := by
  have hdec := decode_encode hwf
  have hne : encode i ≠ [] := fun h => by rw [h] at hdec; cases hdec
  have hfetch := fetchUnit_midUnit (rest := rest) [] hne (length_le_six hdec) hdec hfault
  rw [← hq, midUnit_nil, List.nil_append] at hfetch
  rw [tookUnit_eq_midUnit, fetchNext, hfetch]

/-! ### Steps that run a unit -/

theorem proceed_of_not_halted {s : State} (h : s.eu.halted = false) : proceed s = fetchNext (beginInstr s) :=
  if_neg (by simp [h])

/-- Where nothing is recognised and the CPU is not halted, the next instruction begins (R810, R813). -/
theorem boundary_of_nothingPending {s : State} (hn : NothingPending s) (hh : s.eu.halted = false) :
    boundary s = fetchNext (beginInstr s) := by
  unfold boundary
  cases hshadow : s.eu.shadow with
  | true =>
    have hbegin : beginInstr { s with eu := { s.eu with shadow := false } } = beginInstr s := rfl
    rw [if_pos rfl, ← hbegin]
    exact proceed_of_not_halted hh
  | false =>
    obtain ⟨hint, htrap⟩ := hn.resolve_left (by simp [hshadow])
    have hnmi : s.nmiLatch = false := (Bool.or_eq_false_iff.mp hint).1
    simp only [hnmi, hint, htrap, Bool.false_eq_true, if_false]
    exact proceed_of_not_halted hh

theorem nextUnit_of_atBoundary {s : State} (h : AtBoundary s) : nextUnit s = boundary s := by
  obtain ⟨hfrozen, hwaiting, hfetched⟩ := h
  simp [nextUnit, hfrozen, hwaiting, hfetched]

/-- Inside an instruction no boundary comes before the next byte (R204). -/
theorem nextUnit_of_prefixed {s : State} (hfrozen : frozen s = false) (hwaiting : s.eu.waiting = false)
    (hfetched : s.eu.fetched ≠ []) : nextUnit s = fetchNext s := by
  simp [nextUnit, hfrozen, hwaiting, hfetched]

theorem step_of_run {s t : State} {i : Instr} (h : nextUnit s = .run i t) : step s = exec i t := by
  rw [step, h]

/-- Settles O6: at a boundary and inside an instruction alike the step comes to the fetch loop, which takes the unit's
bytes. -/
theorem stepRunsUnit : Obligations.StepRunsUnit := by
  intro s i rest hwf hq
  constructor
  · intro hb hn hh hfault
    apply step_of_run
    rw [nextUnit_of_atBoundary hb, boundary_of_nothingPending hn hh]
    exact fetchNext_of_queue hwf hq hfault
  · intro hfrozen hwaiting hfetched hfault
    apply step_of_run
    rw [nextUnit_of_prefixed hfrozen hwaiting hfetched]
    exact fetchNext_of_queue hwf hq hfault

end Sys2Proof.Machine
end

section
/-! PROOFS. The invariant of the machine under every step: a piece of work built from the primitive operations keeps
a live state live, so each form that a unit's meaning takes ends in the invariant. -/

namespace Sys2Proof.Machine

/-- A piece of work keeps a live state live, because the primitives it is built from do. -/
theorem Safe.of_built {α : Type} {m : EU α} (h : Built m) : Safe m := by
  induction h with
  | pure a => exact Safe.pure a
  | bind _ _ hm hf => exact Safe.bind hm hf
  | readS f => exact Safe.readS f
  | modifyCpu f => exact Safe.modifyCpu f
  | modifyEu hf => exact Safe.modifyEu hf
  | drawBit => exact Safe.drawBit
  | busAccess r => exact Safe.busAccess r
  | jump off => exact Safe.jump off
  | jumpFar seg off => exact Safe.jumpFar seg off
  | setLockOut b => exact Safe.setLockOut b

/-- A unit that only changes the Execution Engine's own state leaves the bus as it was, idle and unlocked, and the
CPU still running (R204, R738). -/
theorem goOn_nextInv {f : Eu → Eu} {s : State} (hf : ∀ e, (f e).halted = e.halted) (hr : Running s) :
    NextInv (goOn f s) := by
  obtain ⟨⟨⟨hmem, hports, hbiu⟩, -, hidle⟩, -, hhalted, hlock⟩ := hr
  have hrunning : (f s.eu).halted = false := (hf s.eu).trans hhalted
  refine ⟨_, rfl, hmem, hports, hbiu, fun _ => ⟨hidle, hlock, fun h => ?_, rfl⟩⟩
  exact absurd (hrunning.symm.trans h) (by decide)

theorem UnitForm.nextInv {s : State} {r : Result} (h : UnitForm s r) (hr : Running s) : NextInv r := by
  have hlive : Live s := hr.1
  cases h with
  | whole hbody => exact complete_nextInv (.of_built hbody) hlive
  | ended => exact runEU_endInstr (Safe.pure () s hlive)
  | goesOn hf => exact goOn_nextInv (fun e => (hf e).2) hr
  | decodeFault => exact decodeFault_nextInv hlive.1

/-- A unit that runs answers a next state, which satisfies the invariant. -/
theorem exec_nextInv (i : Instr) {s : State} (hr : Running s) : NextInv (exec i s) := (exec_form i s).nextInv hr

/-- Settles O3: between two units every answer satisfies the invariant (`nextUnit_ok`), and every unit that runs ends
in it. -/
theorem stepKeepsInvariant : Obligations.StepKeepsInvariant := by
  intro s t hs hstep
  have hok := nextUnit_ok hs
  unfold step at hstep
  cases hn : nextUnit s with
  | run i u =>
    rw [hn] at hok hstep
    obtain ⟨v, hv, hinv⟩ := exec_nextInv i hok
    cases hv.symm.trans hstep
    exact hinv
  | answer r =>
    rw [hn] at hok hstep
    cases hstep
    exact hok

end Sys2Proof.Machine
end

section
/-! PROOFS. The bus and the memory behind it (20_memory.md): the phases of a transaction, arbitration at a free bus,
accesses to unmapped addresses, and byte storage. -/

namespace Sys2Proof.Machine

/-! ### Phases -/

section Phases

variable {hold : Bool} {s : State} {t : Txn}

/-- The completion of a transaction leaves its record on the bus. -/
@[simp] theorem finishTxn_bus (t : Txn) (s : State) : (finishTxn t s).biu.bus = s.biu.bus := by
  unfold finishTxn
  split
  · split <;> rfl
  · rfl

theorem busStep_bus_of_address (hbus : s.biu.bus = .busy t) (hphase : t.phase = .address) :
    (busStep hold s).biu.bus = .busy { t with phase := .status } := by
  simp [busStep, hbus, hphase]

theorem busStep_bus_of_status (hbus : s.biu.bus = .busy t) (hphase : t.phase = .status) :
    (busStep hold s).biu.bus = .busy { t with phase := .data, data := (dataPhase t s).1 } := by
  simp [busStep, hbus, hphase]

theorem busStep_bus_of_data (hbus : s.biu.bus = .busy t) (hphase : t.phase = .data) :
    (busStep hold s).biu.bus = .busy { t with phase := .clear } := by
  simp [busStep, hbus, hphase]

end Phases

/-- Settles O57. -/
theorem phaseOrder : Obligations.PhaseOrder := by
  intro hold s t hbus hclear hnone
  cases hphase : t.phase with
  | none => exact absurd hphase hnone
  | clear => exact absurd hphase hclear
  | address => exact ⟨_, busStep_bus_of_address hbus hphase, rfl, rfl, rfl, rfl, by simp⟩
  | status => exact ⟨_, busStep_bus_of_status hbus hphase, rfl, rfl, rfl, rfl, by simp⟩
  | data => exact ⟨_, busStep_bus_of_data hbus hphase, rfl, rfl, rfl, rfl, by simp⟩

/-! ### Arbitration -/

section Arbitration

variable {hold : Bool} {s : State}

/-- A passive bus and one whose transaction is in its clear phase are arbitrated alike (log entry 30). -/
theorem busStep_of_free (hfree : s.biu.bus = .passive ∨ ∃ t, s.biu.bus = .busy t ∧ t.phase = .clear) :
    busStep hold s = arbitrate hold s := by
  rcases hfree with hbus | ⟨t, hbus, hphase⟩
  · simp [busStep, hbus]
  · simp [busStep, hbus, hphase]

/-- An unlocked HOLD is granted (R134, R162). -/
theorem arbitrate_hold (hhold : hold = true) (hlock : s.biu.lockOut = false) :
    arbitrate hold s = { s with biu := { s.biu with bus := .held, hlda := true } } :=
  if_pos (by simp [hhold, hlock])

/-- A HOLD that is not asserted, or is locked out, is not granted. -/
theorem hold_not_granted (h : hold = false ∨ s.biu.lockOut = true) : (hold && !s.biu.lockOut) ≠ true := by
  rcases h with h | h <;> simp [h]

/-- Without a HOLD to grant, a request of the Execution Engine starts (R134). -/
theorem arbitrate_request {r : Request} (hhold : hold = false ∨ s.biu.lockOut = true) (hreq : s.biu.euReq = some r) :
    arbitrate hold s = setBus (.busy (txnOf r)) s := by
  rw [arbitrate, if_neg (hold_not_granted hhold), hreq]
  rfl

/-- Without a HOLD to grant and without a request, the prefetcher alone may start (R135). -/
theorem arbitrate_noRequest (hhold : hold = false ∨ s.biu.lockOut = true) (hreq : s.biu.euReq = none) :
    arbitrate hold s =
      if mayPrefetch s then
        setBus (.busy ⟨.instructionFetch, .mem s.cpu.cs (fetchOffset s), 0, .address, .prefetch, false⟩) s
      else setBus .passive s := by
  rw [arbitrate, if_neg (hold_not_granted hhold), hreq]

/-- The prefetch condition of R135. -/
theorem mayPrefetch_iff :
    mayPrefetch s = true ↔
      s.biu.queue.length < 6 ∧ s.eu.halted = false ∧ s.eu.faulted = none ∧ s.stopped = false := by
  unfold mayPrefetch Config.queueDepth
  simp [and_assoc]

end Arbitration

/-- Settles O58. -/
theorem arbitration : Obligations.Arbitration := by
  intro hold s hfree
  rw [busStep_of_free hfree]
  refine ⟨fun hhold hlock => ?granted, fun hhold => ⟨fun r hreq => ?request, fun hreq => ⟨fun hmay => ?fetch,
    fun hmay => ?passive⟩⟩⟩
  case granted =>
    rw [arbitrate_hold hhold hlock]
    exact ⟨rfl, rfl⟩
  case request =>
    rw [arbitrate_request hhold hreq]
    rfl
  case fetch =>
    rw [arbitrate_noRequest hhold hreq, if_pos (mayPrefetch_iff.mpr hmay)]
    exact ⟨0, rfl⟩
  case passive =>
    rw [arbitrate_noRequest hhold hreq, if_neg (mt mayPrefetch_iff.mp hmay)]
    rfl

/-! ### Unmapped addresses -/

section Unmapped

variable {s : State} {a : Nat}

/-- A read of an unmapped address records the BusFault and gives a free byte (R125). -/
theorem sampleMemory_unmapped (kind : BusKind) (h : regionKind s.params.memMap a = none) :
    sampleMemory kind a s = drawByte (busFault kind a s) := by
  simp [sampleMemory, h]

/-- A write to an unmapped address only records the BusFault (R125). -/
theorem depositMemory_unmapped (kind : BusKind) (b : Byte) (h : regionKind s.params.memMap a = none) :
    depositMemory kind a b s = busFault kind a s := by
  simp [depositMemory, h]

/-- The data phase of a fetch, read or write of an unmapped address is its BusFault and, where a byte is read, a
draw (R125). -/
theorem dataPhase_unmapped {k : BusKind} {seg off : Word} (b : Byte) (ph : Phase) (o : Owner) (st : Bool)
    (hk : k = .instructionFetch ∨ k = .readMemory ∨ k = .writeMemory)
    (h : regionKind s.params.memMap (phys seg off) = none) :
    ∃ env, (dataPhase ⟨k, .mem seg off, b, ph, o, st⟩ s).2 = { busFault k (phys seg off) s with env := env } := by
  rcases hk with rfl | rfl | rfl
  · exact ⟨_, congrArg Prod.snd (sampleMemory_unmapped .instructionFetch h)⟩
  · exact ⟨_, congrArg Prod.snd (sampleMemory_unmapped .readMemory h)⟩
  · exact ⟨_, depositMemory_unmapped .writeMemory b h⟩

end Unmapped

/-- Settles O59: neither a BusFault nor a draw is in the view. -/
theorem busFaults : Obligations.BusFaults := by
  intro s seg off b hunmapped k ph o st hk
  obtain ⟨env, hphase⟩ := dataPhase_unmapped b ph o st hk hunmapped
  have hnmi : (if s.params.busFaultNmi then true else s.nmiLatch) = (s.nmiLatch || s.params.busFaultNmi) := by
    cases s.params.busFaultNmi <;> simp
  rw [hphase]
  exact ⟨rfl, hnmi, rfl⟩

/-! ### Storage -/

/-- Settles O60. -/
theorem storageLaws : Obligations.StorageLaws := by
  intro m a c b hm
  refine ⟨memWf_memWrite hm, ?_⟩
  split
  case isTrue h =>
    rw [h]
    exact memRead_self hm
  case isFalse h => exact memRead_other h

end Sys2Proof.Machine
end

section
/-! PROOFS. The encoding (30_encoding.md): a unit is read back from its bytes whatever follows them, and the bytes
that R240 identifies as an undocumented encoding are those of the units that are one. -/

namespace Sys2Proof

/-- Settles O8: the unit's own bytes are whole, and further bytes are left over. -/
theorem decodeEncode : Obligations.DecodeEncode := fun _ rest h => decode_append (decode_encode h) rest

/-- Settles O10, each by running the decoder. -/
theorem encodedWords : Obligations.EncodedWords := ⟨rfl, rfl, rfl, rfl, rfl, rfl, rfl, rfl⟩

/-! ### What identifies an undocumented encoding -/

/-- Initial parts of `bytes` are identified as the undocumented encoding `o`, and as no other (R201, R240). -/
def Identifies (bytes : List Byte) (o : Option UndocId) : Prop :=
  ∀ u, o = some u ↔ ∃ bs, bs <+: bytes ∧ undocOf bs = some u

/-- Only the first byte of a unit, or its first two, can identify it. -/
theorem short_of_undocOf {op : Byte} {tail bs : List Byte} {u : UndocId} (hbs : bs <+: op :: tail)
    (h : undocOf bs = some u) : bs = [op] ∨ ∃ b, tail.head? = some b ∧ bs = [op, b] := by
  obtain ⟨more, hmore⟩ := hbs
  match bs, h with
  | [], h => cases h
  | [a], _ =>
    cases hmore
    exact .inl rfl
  | [a, b], _ =>
    cases hmore
    exact .inr ⟨b, rfl, rfl⟩
  | _ :: _ :: _ :: _, h => cases h

section Shapes

variable {op m b : Byte} {tail : List Byte} {o : Option UndocId} {reg : Bits3}

/-- An opcode with a ModRM byte is identified with that byte. -/
theorem identifies_modrm (hop : hasModrm op = true) (hm : undocModrm op m = o) :
    Identifies (op :: m :: tail) o := by
  intro u
  constructor
  · rintro rfl
    exact ⟨[op, m], ⟨tail, rfl⟩, by simp [undocOf, hop, hm]⟩
  · rintro ⟨bs, hbs, h⟩
    obtain rfl | ⟨_, hb, rfl⟩ := short_of_undocOf hbs h
    · simp [undocOf, hop] at h
    · cases hb
      simpa [undocOf, hop, hm] using h

/-- An opcode without a ModRM byte is identified by itself, unless it is AAM or AAD. -/
theorem identifies_op (hop : hasModrm op = false) (hbase : isAsciiBase op = false) (ho : undocOp op = o) :
    Identifies (op :: tail) o := by
  intro u
  constructor
  · rintro rfl
    exact ⟨[op], ⟨tail, rfl⟩, by simp [undocOf, hop, ho]⟩
  · rintro ⟨bs, hbs, h⟩
    obtain rfl | ⟨_, -, rfl⟩ := short_of_undocOf hbs h
    · simpa [undocOf, hop, ho] using h
    · simp [undocOf, hop, hbase] at h

/-- AAM and AAD are identified with their base (U16). -/
theorem identifies_asciiBase (hop : op = 0xD4#8 ∨ op = 0xD5#8)
    (hb : (if b = 0x0A#8 then none else some .u16) = o) : Identifies [op, b] o := by
  obtain ⟨hmodrm, hbase, hnone⟩ : hasModrm op = false ∧ isAsciiBase op = true ∧ undocOp op = none := by
    rcases hop with rfl | rfl <;> exact ⟨rfl, rfl, rfl⟩
  have hwhole : undocOf [op, b] = o := by
    rw [← hb]
    simp [undocOf, hmodrm, hbase]
  intro u
  constructor
  · rintro rfl
    exact ⟨[op, b], List.prefix_rfl, hwhole⟩
  · rintro ⟨bs, hbs, h⟩
    obtain rfl | ⟨_, hnext, rfl⟩ := short_of_undocOf hbs h
    · simp [undocOf, hmodrm, hnone] at h
    · cases hnext
      exact hwhole.symm.trans h

theorem encMem_eq_cons (reg : Bits3) (x : MemOp) :
    ∃ mode rm tail, encMem reg x = modrmByte mode reg rm :: tail ∧ mode ≠ 3 := by
  cases x with
  | ind base => exact ⟨0, base.code, [], rfl, by decide⟩
  | direct d => exact ⟨0, 6, wordBytes d, rfl, by decide⟩
  | disp8 base d => exact ⟨1, base.code, [d], rfl, by decide⟩
  | disp16 base d => exact ⟨2, base.code, wordBytes d, rfl, by decide⟩

theorem encRm_eq_cons {ρ : Type} (code : ρ → Bits3) (reg : Bits3) (e : Rm ρ) :
    ∃ mode rm tail, encRm code reg e = modrmByte mode reg rm :: tail := by
  cases e with
  | reg r => exact ⟨3, code r, [], rfl⟩
  | mem x =>
    obtain ⟨mode, rm, tail, h, -⟩ := encMem_eq_cons reg x
    exact ⟨mode, rm, tail, h⟩

/-- A unit with an r/m operand, then an immediate. -/
theorem identifies_rm_imm {ρ : Type} {code : ρ → Bits3} {e : Rm ρ} (hop : hasModrm op = true)
    (hm : ∀ mode rm, undocModrm op (modrmByte mode reg rm) = o) :
    Identifies (op :: (encRm code reg e ++ tail)) o := by
  obtain ⟨mode, rm, disp, h⟩ := encRm_eq_cons code reg e
  rw [h]
  exact identifies_modrm hop (hm mode rm)

/-- A unit with an r/m operand. -/
theorem identifies_rm {ρ : Type} {code : ρ → Bits3} {e : Rm ρ} (hop : hasModrm op = true)
    (hm : ∀ mode rm, undocModrm op (modrmByte mode reg rm) = o) :
    Identifies (op :: encRm code reg e) o := by
  rw [← List.append_nil (encRm code reg e)]
  exact identifies_rm_imm hop hm

/-- A unit with a memory operand only. -/
theorem identifies_mem {x : MemOp} (hop : hasModrm op = true)
    (hm : ∀ mode rm, mode ≠ 3 → undocModrm op (modrmByte mode reg rm) = o) :
    Identifies (op :: encMem reg x) o := by
  obtain ⟨mode, rm, disp, h, hmode⟩ := encMem_eq_cons reg x
  rw [h]
  exact identifies_modrm hop (hm mode rm hmode)

end Shapes

/-! ### Every unit -/

/-- LEA, LES and LDS: undocumented exactly with mod = 11 (U8). -/
theorem undocModrm_memOnly {op : Byte} (hop : op = 0x8D#8 ∨ op = 0xC4#8 ∨ op = 0xC5#8) (m : Byte) :
    undocModrm op m = if modOf m = 3 then some .u8 else none := by
  rcases hop with rfl | rfl | rfl <;> rfl

/-- POP and MOV immediate with a `reg` field other than 0 (U10). -/
theorem undocModrm_selector {op : Byte} (hop : op = 0x8F#8 ∨ op = 0xC6#8 ∨ op = 0xC7#8) {sel : Bits3}
    (hsel : sel ≠ 0) (mode : Bits2) (rm : Bits3) : undocModrm op (modrmByte mode sel rm) = some .u10 := by
  have hreg : (regOf (modrmByte mode sel rm)).toNat ≠ 0 := by
    rw [regOf_modrmByte]
    exact fun h => hsel (BitVec.eq_of_toNat_eq h)
  rcases hop with rfl | rfl | rfl <;> exact if_neg hreg

/-- ESC is documented with every coprocessor opcode (R242). -/
theorem undocModrm_esc (op : Bits3) (m : Byte) :
    hasModrm (opcodeReg 0xD8#8 op) = true ∧ undocModrm (opcodeReg 0xD8#8 op) m = none := by
  have hop : op = 0 ∨ op = 1 ∨ op = 2 ∨ op = 3 ∨ op = 4 ∨ op = 5 ∨ op = 6 ∨ op = 7 := by
    revert op
    decide
  rcases hop with rfl | rfl | rfl | rfl | rfl | rfl | rfl | rfl <;> exact ⟨rfl, rfl⟩

/-- The bytes of a well-formed unit identify the undocumented encoding it is, if it is one. -/
theorem identifies_encode {i : Instr} (h : i.wf = true) : Identifies (encode i) i.undoc := by
  cases i with
  -- no ModRM byte
  | esPrefix | csPrefix | ssPrefix | dsPrefix | lock | lockAlias | repne | repe | popCs | xlat | pushf | popf | sahf
  | lahf | inAlDx | inAxDx | outDxAl | outDxAx | daa | das | aaa | aas | cbw | cwd | movsb | movsw | cmpsb | cmpsw
  | stosb | stosw | lodsb | lodsw | scasb | scasw | ret | retAlias | retf | retfAlias | int3 | into | iret | clc | stc
  | cmc | cld | std | cli | sti | hlt | wait | nop | salc
  | addAlIb | orAlIb | adcAlIb | sbbAlIb | andAlIb | subAlIb | xorAlIb | cmpAlIb | testAlIb | inAlIb | inAxIb | outIbAl
  | outIbAx | jo | jno | jb | jnb | jz | jnz | jbe | ja | js | jns | jp | jnp | jl | jge | jle | jg | joAlias | jnoAlias
  | jbAlias | jnbAlias | jzAlias | jnzAlias | jbeAlias | jaAlias | jsAlias | jnsAlias | jpAlias | jnpAlias | jlAlias
  | jgeAlias | jleAlias | jgAlias | jmpJb | loopne | loope | loop | jcxz | int
  | addAxIw | orAxIw | adcAxIw | sbbAxIw | andAxIw | subAxIw | xorAxIw | cmpAxIw | testAxIw
  | movAlOb | movAxOw | movObAl | movOwAx | jmpJw | callJw | retIw | retIwAlias | retfIw | retfIwAlias
  | jmpAp | callAp => exact identifies_op rfl rfl rfl
  | pushR16 r | popR16 r | incR16 r | decR16 r | pushSreg r | xchgAxR16 r | movR8Ib r | movR16Iw r =>
    cases r <;> exact identifies_op rfl rfl rfl
  | popSreg r =>
    cases r with
    | cs => cases h
    | es | ss | ds => exact identifies_op rfl rfl rfl
  | aam => exact identifies_asciiBase (.inl rfl) rfl
  | aad => exact identifies_asciiBase (.inr rfl) rfl
  | aamBase => exact identifies_asciiBase (.inl rfl) (if_neg (by simpa [Instr.wf] using h))
  | aadBase => exact identifies_asciiBase (.inr rfl) (if_neg (by simpa [Instr.wf] using h))
  -- an r/m operand, the opcode alone deciding
  | addEbGb | orEbGb | adcEbGb | sbbEbGb | andEbGb | subEbGb | xorEbGb | cmpEbGb | testEbGb | xchgEbGb | movEbGb
  | addGbEb | orGbEb | adcGbEb | sbbGbEb | andGbEb | subGbEb | xorGbEb | cmpGbEb | movGbEb
  | addEwGw | orEwGw | adcEwGw | sbbEwGw | andEwGw | subEwGw | xorEwGw | cmpEwGw | testEwGw | xchgEwGw | movEwGw
  | addGwEw | orGwEw | adcGwEw | sbbGwEw | andGwEw | subGwEw | xorGwEw | cmpGwEw | movGwEw =>
    exact identifies_rm rfl fun _ _ => rfl
  | addEbIb | orEbIb | adcEbIb | sbbEbIb | andEbIb | subEbIb | xorEbIb | cmpEbIb
  | addEbIbAlias | orEbIbAlias | adcEbIbAlias | sbbEbIbAlias | andEbIbAlias | subEbIbAlias | xorEbIbAlias | cmpEbIbAlias
  | addEwIw | orEwIw | adcEwIw | sbbEwIw | andEwIw | subEwIw | xorEwIw | cmpEwIw =>
    exact identifies_rm_imm rfl fun _ _ => rfl
  | esc op reg e => exact identifies_rm (undocModrm_esc op 0).1 fun _ _ => (undocModrm_esc op _).2
  -- an r/m operand, the `reg` field deciding
  | incEb | decEb | incEw | decEw | notEb | negEb | mulEb | imulEb | divEb | idivEb | notEw | negEw | mulEw | imulEw
  | divEw | idivEw | rolEb1 | rorEb1 | rclEb1 | rcrEb1 | shlEb1 | shrEb1 | sarEb1 | rolEbCl | rorEbCl | rclEbCl
  | rcrEbCl | shlEbCl | shrEbCl | sarEbCl | rolEw1 | rorEw1 | rclEw1 | rcrEw1 | shlEw1 | shrEw1 | sarEw1 | rolEwCl
  | rorEwCl | rclEwCl | rcrEwCl | shlEwCl | shrEwCl | sarEwCl | pushEw | popEw | jmpEw | callEw =>
    exact identifies_rm (o := none) rfl (by decide)
  | pushEwAlias => exact identifies_rm (o := some .u13) rfl (by decide)
  | addEwIbs | adcEwIbs | sbbEwIbs | subEwIbs | cmpEwIbs | movEbIb | movEwIw | testEbIb | testEwIw =>
    exact identifies_rm_imm (o := none) rfl (by decide)
  | orEwIbs | andEwIbs | xorEwIbs => exact identifies_rm_imm (o := some .u3) rfl (by decide)
  | testEbIbAlias | testEwIwAlias => exact identifies_rm_imm (o := some .u11) rfl (by decide)
  | movEwSw _ r => cases r <;> exact identifies_rm (o := none) rfl (by decide)
  | movEwSwAlias _ r => cases r <;> exact identifies_rm (o := some .u5) rfl (by decide)
  | movSwEw r =>
    cases r with
    | cs => cases h
    | es | ss | ds => exact identifies_rm (o := none) rfl (by decide)
  | movSwEwAlias r =>
    cases r with
    | cs => cases h
    | es | ss | ds => exact identifies_rm (o := some .u6) rfl (by decide)
  | popEwAlias =>
    obtain ⟨hsel, -⟩ : _ ≠ _ ∧ _ := by simpa [Instr.wf] using h
    exact identifies_rm rfl (undocModrm_selector (.inl rfl) hsel)
  | movEbIbAlias =>
    obtain ⟨hsel, -⟩ : _ ≠ _ ∧ _ := by simpa [Instr.wf] using h
    exact identifies_rm_imm rfl (undocModrm_selector (.inr (.inl rfl)) hsel)
  | movEwIwAlias =>
    obtain ⟨hsel, -⟩ : _ ≠ _ ∧ _ := by simpa [Instr.wf] using h
    exact identifies_rm_imm rfl (undocModrm_selector (.inr (.inr rfl)) hsel)
  -- a memory operand only
  | lea | les | lds =>
    refine identifies_mem rfl fun _ _ hmode => (undocModrm_memOnly (by simp) _).trans (if_neg ?_)
    rwa [modOf_modrmByte]
  | jmpMp | callMp => exact identifies_mem (o := none) rfl (by decide)
  -- an encoding without a meaning, complete with its ModRM byte
  | leaReg | lesReg | ldsReg =>
    exact identifies_modrm rfl ((undocModrm_memOnly (by simp) _).trans (if_pos (modOf_modrmByte _ _ _)))
  | jmpFarReg e | callFarReg e => cases e <;> exact identifies_modrm rfl rfl
  | movCsEw hi mode rm =>
    refine identifies_modrm rfl ?_
    revert hi mode rm
    decide
  | shiftUndoc6 byCl wide mode rm =>
    refine identifies_modrm (by cases byCl <;> cases wide <;> rfl) ?_
    revert byCl wide mode rm
    decide
  | feUndoc2 mode rm | feUndoc3 mode rm | feUndoc4 mode rm | feUndoc5 mode rm | feUndoc6 mode rm | feUndoc7 mode rm =>
    refine identifies_modrm rfl ?_
    revert mode rm
    decide

/-- Settles O9: what a unit's first bytes identify is read off its shape. -/
theorem undocumentedIdentified : Obligations.UndocumentedIdentified := fun _ u h => identifies_encode h u

end Sys2Proof
end

section
/-! PROOFS. The units that no whole instruction stands behind: the prefixes (R202) and the undocumented encodings that
may not run (R803). -/

namespace Sys2Proof.Machine

open Sys2Proof.Claims

/-- Settles O48: each goes on with its own record set, F1 when it is admitted. -/
theorem prefixes : Obligations.Prefixes := by
  intro s i f hf hadmitted
  cases i with
  | esPrefix | csPrefix | ssPrefix | dsPrefix | lock | repne | repe =>
    cases hf
    rfl
  | lockAlias =>
    cases hf
    exact ifAdmitted_eq (hadmitted .u12 rfl)
  | _ => cases hf

/-- An undocumented encoding that is not admitted raises DecodeFault (R240). -/
theorem exec_undoc_fault {i : Instr} {u : UndocId} {s : State} (hu : i.undoc = some u)
    (hno : admits s.params u = false) : exec i s = decodeFault s := by
  cases i with
  | popCs | movCsEw | leaReg | lesReg | ldsReg | jmpFarReg | callFarReg | shiftUndoc6 | feUndoc2 | feUndoc3 | feUndoc4
  | feUndoc5 | feUndoc6 | feUndoc7 => rfl
  | addEbIbAlias | orEbIbAlias | adcEbIbAlias | sbbEbIbAlias | andEbIbAlias | subEbIbAlias | xorEbIbAlias | cmpEbIbAlias
  | orEwIbs | andEwIbs | xorEwIbs | pushEwAlias | popEwAlias | movEwSwAlias | movSwEwAlias | movEbIbAlias | movEwIwAlias
  | aamBase | aadBase | testEbIbAlias | testEwIwAlias | joAlias | jnoAlias | jbAlias | jnbAlias | jzAlias | jnzAlias
  | jbeAlias | jaAlias | jsAlias | jnsAlias | jpAlias | jnpAlias | jlAlias | jgeAlias | jleAlias | jgAlias | retIwAlias
  | retfIwAlias | retAlias | retfAlias | lockAlias | salc =>
    cases hu
    exact ifAdmitted_fault hno
  | _ => cases hu

/-- The encodings that have no meaning to admit (R240). -/
theorem admits_meaningless {p : Params} {u : UndocId}
    (h : u = .u7 ∨ u = .u8 ∨ u = .u9 ∨ u = .u17 ∨ u = .u18) : admits p u = false := by
  rcases h with rfl | rfl | rfl | rfl | rfl <;> rfl

/-- Settles O49: a meaningless encoding is never admitted, and one not admitted raises DecodeFault. -/
theorem decodeFaults : Obligations.DecodeFaults := by
  intro s i u hu hwhy
  exact exec_undoc_fault hu (hwhy.elim id admits_meaningless)

end Sys2Proof.Machine
end

section
/-! PROOFS. The fetch of a unit that memory holds (R135, R136, R201): ticks pass until each of its bytes is in the
queue, and nothing that instructions act on changes meanwhile. -/

namespace Sys2Proof.Machine

open Sys2Proof.Claims

/-! ### A phase step without a request -/

/-- What one phase step of the Bus Cycle Engine can be while the Execution Engine has no request (R130, R134): the
bus is left free, a fetch starts, or the fetch in flight moves on by one phase. -/
inductive IdleStep (s : State) : State → Prop
  | free {b : Bus} (h : Bool) (hb : ∀ t, b ≠ .busy t) :
      IdleStep s { s with biu := { s.biu with bus := b, hlda := h } }
  | start : IdleStep s
      (setBus (.busy ⟨.instructionFetch, .mem s.cpu.cs (fetchOffset s), 0, .address, .prefetch, false⟩) s)
  | status {t : Txn} (hb : s.biu.bus = .busy t) (hp : t.phase = .address) :
      IdleStep s (setBus (.busy { t with phase := .status }) s)
  | sample {t : Txn} (hb : s.biu.bus = .busy t) (hp : t.phase = .status) (hk : t.kind = .instructionFetch) :
      IdleStep s (setBus (.busy { t with phase := .data, data := (dataPhase t s).1 }) (dataPhase t s).2)
  | finish {t : Txn} (hb : s.biu.bus = .busy t) (hp : t.phase = .data) (ho : t.owner = .prefetch) :
      IdleStep s (finishTxn t (setBus (.busy { t with phase := .clear }) s))

theorem arbitrate_idleStep {s : State} (hold : Bool) (hreq : s.biu.euReq = none) : IdleStep s (arbitrate hold s) := by
  unfold arbitrate
  split
  · exact .free true (by simp)
  · rw [hreq]
    dsimp only
    split
    · exact .start
    · exact .free s.biu.hlda (by simp)

theorem busStep_idleStep {s : State} (hold : Bool) (hi : EuIdle s)
    (hph : ∀ t, s.biu.bus = .busy t → t.phase ≠ .none) : IdleStep s (busStep hold s) := by
  obtain ⟨hreq, hquiet⟩ := hi
  cases hb : s.biu.bus with
  | passive =>
    simp only [busStep, hb]
    exact arbitrate_idleStep hold hreq
  | held =>
    cases hold with
    | false =>
      simp only [busStep, hb, Bool.false_eq_true, if_false]
      exact .free false (by simp)
    | true =>
      simp only [busStep, hb, if_true]
      exact IdleStep.free (b := s.biu.bus) s.biu.hlda (by simp [hb])
  | busy t =>
    have hfetch : t.phase ≠ .clear → t.owner = .prefetch ∧ t.kind = .instructionFetch := by
      intro hc
      simpa [busQuiet, hb, hc] using hquiet
    simp only [busStep, hb]
    cases hp : t.phase with
    | none => exact absurd hp (hph t hb)
    | address => exact .status hb hp
    | status => exact .sample hb hp (hfetch (by simp [hp])).2
    | data => exact .finish hb hp (hfetch (by simp [hp])).1
    | clear => exact arbitrate_idleStep hold hreq

/-- A fetch changes nothing that instructions act on. -/
theorem IdleStep.view_eq {s t : State} (h : IdleStep s t) : view t = view s := by
  cases h with
  | free | start | status => rfl
  | sample _ _ hk => exact dataPhase_fetch_view hk s
  | @finish t _ _ ho =>
    simp only [finishTxn, ho]
    split <;> rfl

/-! ### Memory, queue and fetch agree -/

/-- The bytes `todo` stand in RAM or ROM from CS:IP on; those that the queue already has are in their places, and a
fetch in flight is of the byte after the queue's last (R58, R135, R136). -/
structure Feeds (todo : List Byte) (s : State) : Prop where
  stored : ∀ k b, todo[k]? = some b → Backed s.params (phys s.cpu.cs (s.cpu.ip + BitVec.ofNat 16 k)) ∧
    memRead s.mem (phys s.cpu.cs (s.cpu.ip + BitVec.ofNat 16 k)) = b
  queued : ∀ (k : Nat) (b q : Byte), todo[k]? = some b → s.biu.queue[k]? = some q → q = b
  phased : ∀ t, s.biu.bus = .busy t → t.phase ≠ .none
  inFlight : ∀ t, s.biu.bus = .busy t → t.owner = .prefetch → t.phase ≠ .clear → t.stale = false →
    t.target = .mem s.cpu.cs (fetchOffset s) ∧
      (t.phase = .data → ∀ b, todo[s.biu.queue.length]? = some b → t.data = b)

theorem Feeds.congr {s t : State} {todo : List Byte} (h : Feeds todo s) (hcpu : t.cpu = s.cpu) (hmem : t.mem = s.mem)
    (hparams : t.params = s.params) (hbiu : t.biu = s.biu) : Feeds todo t where
  stored := by simpa [hcpu, hmem, hparams] using h.stored
  queued := by simpa [hbiu] using h.queued
  phased := by simpa [hbiu] using h.phased
  inFlight := by simpa [hbiu, hcpu, fetchOffset] using h.inFlight

/-- The queue and the fetch in flight agree with memory (`Coherent`), so they agree with the bytes that it holds. -/
theorem feeds_of_coherent {s : State} {todo : List Byte} (hc : Coherent s) (hb : BiuWf s.biu)
    (hstored : ∀ k b, todo[k]? = some b → Backed s.params (phys s.cpu.cs (s.cpu.ip + BitVec.ofNat 16 k)) ∧
      memRead s.mem (phys s.cpu.cs (s.cpu.ip + BitVec.ofNat 16 k)) = b) : Feeds todo s := by
  obtain ⟨hqueue, hflight⟩ := hc
  refine ⟨hstored, fun k b q hk hq => ?_, fun t ht => ?_, fun t ht ho hp hs => ?_⟩
  · rw [hqueue k q hq, (hstored k b hk).2]
  · have hbus := hb.2
    rw [ht] at hbus
    exact hbus.2.1
  · rw [ht] at hflight
    obtain ⟨htarget, hdata⟩ := hflight ho hp hs
    exact ⟨htarget, fun hd b hk => (hdata hd).trans (hstored _ b hk).2⟩

/-- A phase step keeps the agreement: a fetched byte is the one that memory holds (R123, R136). -/
theorem Feeds.idleStep {s t : State} {todo : List Byte} (h : Feeds todo s) (hstep : IdleStep s t) : Feeds todo t := by
  cases hstep with
  | free _ hb => exact ⟨h.stored, h.queued, fun t ht => absurd ht (hb t), fun t ht => absurd ht (hb t)⟩
  | start =>
    refine ⟨h.stored, h.queued, fun t ht => ?_, fun t ht => ?_⟩ <;> cases ht
    · simp
    · exact fun _ _ _ => ⟨rfl, by simp⟩
  | @status t hb hp =>
    refine ⟨h.stored, h.queued, fun t' ht => ?_, fun t' ht ho _ hs => ?_⟩ <;> cases ht
    · simp
    · exact ⟨(h.inFlight t hb ho (by simp [hp]) hs).1, by simp⟩
  | @sample t hb hp hk =>
    obtain ⟨hcpu, -, hbiu, -, hparams, -⟩ := dataPhase_core t s
    have hmem : (dataPhase t s).2.mem = s.mem := congrArg View.mem (dataPhase_fetch_view hk s)
    have hoff : fetchOffset (dataPhase t s).2 = fetchOffset s := by simp [fetchOffset, hcpu, hbiu]
    refine ⟨?_, ?_, fun t' ht => ?_, fun t' ht ho _ hs => ?_⟩
    · simpa [hcpu, hmem, hparams] using h.stored
    · simpa [hbiu] using h.queued
    · cases ht
      simp
    · cases ht
      have htarget := (h.inFlight t hb ho (by simp [hp]) hs).1
      refine ⟨?_, fun _ b hb' => ?_⟩
      · show t.target = .mem (dataPhase t s).2.cpu.cs (fetchOffset (dataPhase t s).2)
        rw [hcpu, hoff, htarget]
      · simp only [setBus_biu, hbiu] at hb'
        obtain ⟨hbacked, hread⟩ := h.stored _ b hb'
        have hsample := sampleMemory_holds .instructionFetch s.cpu.cs (fetchOffset s) s hbacked
        simp only [dataPhase, hk, htarget]
        exact hsample.trans hread
  | @finish t hb hp ho =>
    have hflight := h.inFlight t hb ho (by simp [hp])
    simp only [finishTxn, ho]
    cases hs : t.stale with
    | true =>
      refine ⟨h.stored, h.queued, fun t' ht => ?_, fun t' ht _ hc => ?_⟩ <;> cases ht
      · simp
      · exact absurd rfl hc
    | false =>
      refine ⟨h.stored, fun k b q hk hq => ?_, fun t' ht => ?_, fun t' ht _ hc => ?_⟩
      · simp only [Bool.false_eq_true, if_false, setBus_biu, List.getElem?_append] at hq
        split at hq
        next => exact h.queued k b q hk hq
        next hbeyond =>
          obtain ⟨hlast, rfl⟩ : k = s.biu.queue.length ∧ t.data = q := by
            rw [List.getElem?_singleton] at hq
            split at hq
            · exact ⟨by omega, Option.some.inj hq⟩
            · cases hq
          exact (hflight hs).2 hp b (hlast ▸ hk)
      · cases ht
        simp
      · cases ht
        exact absurd rfl hc

/-- The first byte of the queue is the unit's next byte, and the agreement goes on after it. -/
theorem Feeds.took {s : State} {b q : Byte} {todo rest : List Byte} (h : Feeds (b :: todo) s)
    (hq : s.biu.queue = q :: rest) : q = b ∧ Feeds todo (tookByte q rest s) := by
  have hip : ∀ k, s.cpu.ip + 1 + BitVec.ofNat 16 k = s.cpu.ip + BitVec.ofNat 16 (k + 1) := by
    intro k
    rw [BitVec.add_assoc, Nat.add_comm k 1, BitVec.ofNat_add]
    rfl
  have hoff : fetchOffset (tookByte q rest s) = fetchOffset s := by
    simp only [fetchOffset, tookByte, hq, List.length_cons, hip]
  refine ⟨h.queued 0 b q rfl (by rw [hq]; rfl), ⟨fun k c hk => ?_, fun k c x hk hx => ?_, h.phased,
    fun t ht ho hp hs => ?_⟩⟩
  · simp only [tookByte, hip]
    exact h.stored (k + 1) c hk
  · exact h.queued (k + 1) c x hk (by rw [hq]; exact hx)
  · obtain ⟨htarget, hdata⟩ := h.inFlight t ht ho hp hs
    refine ⟨by rw [hoff]; exact htarget, fun hd c hc => hdata hd c ?_⟩
    rw [hq]
    exact hc

/-! ### One byte -/

theorem fetchCost_pos (b : Bus) : 1 ≤ fetchCost b := by
  cases b with
  | passive => decide
  | held => decide
  | busy t =>
    rcases t with ⟨kind, target, data, phase, owner, stale⟩
    cases phase <;> cases owner <;> cases stale <;> simp [fetchCost]

/-- While a ready CPU waits for a byte, a calm tick brings it or shortens the wait, and keeps the rest. -/
theorem nextTick_fetching {s : State} {todo : List Byte} (hr : Ready s) (hh : s.eu.halted = false)
    (hf : Feeds todo s) (hq : s.biu.queue = []) :
    passTick s = .ok () (nextTick s) ∧ Ready (nextTick s) ∧ view (nextTick s) = view s ∧ Feeds todo (nextTick s) ∧
      ((nextTick s).biu.queue = [] → 6 * (nextTick s).env.inputs.length + fetchCost (nextTick s).biu.bus + 1 ≤
        6 * s.env.inputs.length + fetchCost s.biu.bus) := by
  obtain ⟨hfrozen, hidle, hcalm⟩ := hr
  obtain ⟨s0, hold, hn, hbiu, hview, hstopped, hinputs, hlow⟩ := nextTick_calm hfrozen hcalm
  have hidle0 : EuIdle s0 := by rwa [EuIdle, hbiu]
  have hf0 : Feeds todo s0 := hf.congr (view_cpu_eq hview) (congrArg View.mem hview) (view_params_eq hview) hbiu
  have hstep := busStep_idleStep hold hidle0 hf0.phased
  obtain ⟨-, -, hst, -, hin⟩ := busStep_core hold s0
  have hfrozen0 : frozen s0 = false := (frozen_congr hstopped (view_eu_eq hview)).trans hfrozen
  obtain ⟨hidle1, hwait⟩ := busStep_fetching (hold := hold) hidle0 (by rw [hbiu, hq])
    (by rw [view_eu_eq hview, hh]) hfrozen0 hf0.phased
  have hfrozen1 : frozen (nextTick s) = false := by
    rw [hn]
    exact (frozen_congr hst (view_eu_eq hstep.view_eq)).trans hfrozen0
  refine ⟨by simp [passTick, nextInput_calm hcalm, hfrozen1], ⟨hfrozen1, hn ▸ hidle1, ?_⟩, ?_,
    hn ▸ hf0.idleStep hstep, ?_⟩
  · rw [hn, hin, hinputs]
    exact calm_tail hcalm
  · rw [hn, hstep.view_eq, hview]
  · intro hq1
    rw [hn] at hq1 ⊢
    rw [hbiu] at hwait
    rw [hin, hinputs, List.length_tail]
    rcases (hwait.resolve_left (by simp [hq1])).2 with hless | ⟨hheld, hless⟩
    · omega
    · have hlisted : s.env.inputs.length ≠ 0 := by
        intro h0
        rw [hlow (List.length_eq_zero_iff.mp h0)] at hheld
        cases hheld
      omega

/-- Ticks pass until the unit's next byte is in the queue, and it is taken. -/
theorem takeByte_feeds (n : Nat) {s : State} {b : Byte} {todo : List Byte} (hr : Ready s) (hh : s.eu.halted = false)
    (hf : Feeds (b :: todo) s) (hn : s.biu.queue = [] → 6 * s.env.inputs.length + fetchCost s.biu.bus + 1 ≤ n)
    (h0 : 1 ≤ n) :
    ∃ t rest, takeByte n s = .ok b (tookByte b rest t) ∧ Ready t ∧ view t = view s ∧
      Feeds todo (tookByte b rest t) := by
  induction n generalizing s with
  | zero => exact absurd h0 (by decide)
  | succ n ih =>
    cases hq : s.biu.queue with
    | cons q rest =>
      obtain ⟨rfl, hnext⟩ := hf.took hq
      exact ⟨s, rest, takeByte_cons hq, hr, rfl, hnext⟩
    | nil =>
      obtain ⟨hpass, hr1, hview1, hf1, hless⟩ := nextTick_fetching hr hh hf hq
      have hbound := hn hq
      have hpos := fetchCost_pos s.biu.bus
      obtain ⟨t, rest, htake, hrt, hviewt, hft⟩ := ih hr1 (by rw [view_eu_eq hview1, hh]) hf1
        (fun hq1 => by have := hless hq1; omega) (by omega)
      refine ⟨t, rest, ?_, hrt, hviewt.trans hview1, hft⟩
      rw [takeByte_nil hq, hpass]
      exact htake

theorem fetchByte_feeds {s : State} {b : Byte} {todo : List Byte} (hr : Ready s) (hh : s.eu.halted = false)
    (hf : Feeds (b :: todo) s) :
    ∃ t rest, fetchByte s = .ok b (tookByte b rest t) ∧ Ready t ∧ view t = view s ∧
      Feeds todo (tookByte b rest t) := by
  have hcost := fetchCost_le s.biu.bus
  exact takeByte_feeds (tickBound s) hr hh hf (fun _ => by unfold tickBound; omega) (by unfold tickBound; omega)

/-! ### The whole unit -/

/-- The bytes `taken` of a unit that began in `s` have been taken and `todo` are to come; ticks may have passed. -/
structure InUnit (s : State) (taken todo : List Byte) (t : State) : Prop where
  ready : Ready t
  feeds : Feeds todo t
  view_eq : view t = view (midUnit s taken [])

theorem mustFault_congr {s t : State} (h : view t = view s) (bytes : List Byte) :
    mustFault t bytes = mustFault s bytes := by
  simp only [mustFault, view_params_eq h, view_eu_eq h]

/-- Taking a byte acts on the view alone, whatever the queues are. -/
theorem view_tookByte_congr {s t : State} (h : view t = view s) (b : Byte) (rest rest' bytes : List Byte) :
    view { tookByte b rest t with eu := dropRep bytes (tookByte b rest t).eu } =
      view { tookByte b rest' s with eu := dropRep bytes (tookByte b rest' s).eu } := by
  simp only [view, View.mk.injEq] at h
  obtain ⟨hcpu, heu, hmem, hports, hpics, hdeliveries, hparams⟩ := h
  simp [view, tookByte, hcpu, heu, hmem, hports, hpics, hdeliveries, hparams]

theorem dropRep_faulted (bytes : List Byte) (e : Eu) : (dropRep bytes e).faulted = e.faulted := by
  unfold dropRep
  split <;> rfl

/-- One byte more of the unit, with the look that follows it (R201). -/
theorem InUnit.next {s t : State} {taken todo : List Byte} {b : Byte} (h : InUnit s taken (b :: todo) t)
    (hh : s.eu.halted = false) (hfault : mustFault s (taken ++ [b]) = false) :
    ∃ u, fetchByte t = .ok b u ∧ mustFault u (taken ++ [b]) = false ∧
      InUnit s (taken ++ [b]) todo { u with eu := dropRep (taken ++ [b]) u.eu } := by
  have hrunning : t.eu.halted = false := by rw [view_eu_eq h.view_eq]; exact hh
  obtain ⟨u, rest, hfetch, hr, hview, hfeeds⟩ := fetchByte_feeds h.ready hrunning h.feeds
  have hu := hview.trans h.view_eq
  refine ⟨tookByte b rest u, hfetch, ?_, ?_, ?_, ?_⟩
  · rw [mustFault_tookByte, mustFault_congr hu]
    exact mustFault_midUnit _ _ hfault
  · exact ready_modifyEu (s := tookByte b rest u) hr (dropRep_faulted _ _)
  · exact hfeeds.congr rfl rfl rfl rfl
  · exact (view_tookByte_congr (s := midUnit s taken [b]) hu b rest [] _).trans
      (congrArg view (midUnit_snoc s taken b []))

/-- The fetch loop takes the rest of the unit. -/
theorem InUnit.fetch {s t : State} {i : Instr} {taken todo : List Byte} {n : Nat} (h : InUnit s taken todo t)
    (hh : s.eu.halted = false) (htodo : todo ≠ []) (hlen : todo.length ≤ n)
    (hdec : decode (taken ++ todo) = .done i []) (hfault : ∀ bs, bs <+: taken ++ todo → mustFault s bs = false) :
    ∃ u, fetchUnit n taken t = .ok (some i) u ∧ InUnit s (taken ++ todo) [] u := by
  induction todo generalizing n taken t with
  | nil => exact absurd rfl htodo
  | cons b todo ih =>
    cases n with
    | zero => exact absurd hlen (Nat.not_succ_le_zero _)
    | succ n =>
      rw [List.append_cons] at hdec hfault ⊢
      obtain ⟨u, hbyte, hmay, hnext⟩ := h.next hh (hfault (taken ++ [b]) (List.prefix_append _ _))
      rw [fetchUnit_succ, hbyte]
      simp only [hmay, Bool.false_eq_true, if_false]
      by_cases hlast : todo = []
      · subst hlast
        rw [List.append_nil] at hdec ⊢
        rw [hdec]
        exact ⟨_, rfl, hnext⟩
      · rw [decode_more_of_proper hdec hlast]
        exact ih hnext hlast (Nat.le_of_succ_le_succ hlen) hdec hfault

/-- A unit that memory holds, and none of whose bytes must fault, is the one to run. -/
theorem fetchNext_of_feeds {s : State} {i : Instr} (hr : Ready s) (hf : Feeds (encode i) s) (hh : s.eu.halted = false)
    (hwf : i.wf = true) (hfault : ∀ bs, bs <+: encode i → mustFault s bs = false) :
    ∃ t, fetchNext s = .run i (beginWork (.unit i) t) ∧ InUnit s (encode i) [] t := by
  have hdec := decode_encode hwf
  have hne : encode i ≠ [] := fun h => by rw [h] at hdec; cases hdec
  have hview : view s = view (midUnit s [] s.biu.queue) := by rw [midUnit_nil]
  have hbegun : InUnit s [] (encode i) s := ⟨hr, hf, hview⟩
  obtain ⟨t, hfetch, ht⟩ := hbegun.fetch hh hne (length_le_six hdec) hdec hfault
  exact ⟨t, by rw [fetchNext, hfetch], ht⟩

/-- Settles O7: at a boundary where nothing is recognised the step comes to the fetch loop, which ticks bring the
unit's bytes to. -/
theorem stepFetchesMemory : Obligations.StepFetchesMemory := by
  intro s i hr hbiu hcoherent hb hn hh hwf hfault hstored
  have hf : Feeds (encode i) (beginInstr s) := (feeds_of_coherent hcoherent hbiu hstored).congr rfl rfl rfl rfl
  obtain ⟨t, hnext, ht⟩ := fetchNext_of_feeds (s := beginInstr s) hr hf hh hwf hfault
  refine ⟨beginWork (.unit i) t, step_of_run ?_, ht.ready, ?_⟩
  · rw [nextUnit_of_atBoundary hb, boundary_of_nothingPending hn hh, hnext]
  · have hrep : repAfter (encode i) .none = .none := (repAfter_eq_or_none _ _).elim id id
    refine ht.view_eq.trans ?_
    simp [view, midUnit, View.setIp, View.setEu, View.setCpu, clearPrefixes, hrep]

end Sys2Proof.Machine
end

section
/-! PROOFS. From what a piece of work does to the completion of the instruction it is: a whole instruction whose work
is first written out with the operands it has, and one that takes a value and then puts it somewhere. -/

namespace Sys2Proof.Machine

open Sys2Proof.Claims

/-- An undocumented encoding that is admitted has its silicon meaning (R240). -/
theorem ifAdmitted_of_admitted {i : Instr} {u : UndocId} {meaning : State → Result} {s : State}
    (h : admitted s.params i) (hu : i.undoc = some u) : ifAdmitted u meaning s = meaning s :=
  ifAdmitted_eq (h u hu)

/-- A whole instruction runs its body in `s`, but for the LOCK output (R162): two bodies that agree there are the same
instruction. -/
theorem complete_congr {body body' : EU Unit} {s : State}
    (h : ∀ l, body { s with biu := { s.biu with lockOut := l } } =
      body' { s with biu := { s.biu with lockOut := l } }) : complete body s = complete body' s := by
  have hrun : ∀ l, runEU (do body; endInstr) { s with biu := { s.biu with lockOut := l } } =
      runEU (do body'; endInstr) { s with biu := { s.biu with lockOut := l } } := by
    intro l
    simp only [runEU, bind, EStateM.bind, h l]
  unfold complete
  cases s.eu.lock with
  | false => exact hrun s.biu.lockOut
  | true => exact hrun true

/-- An instruction whose body leaves the view `v`. -/
theorem completes_of_view {i : Instr} {body : EU Unit} {s : State} {v : View} {addrs : List Nat}
    (hi : exec i s = complete body s) (hr : Ready s)
    (hb : ∀ s', Ready s' → view s' = view s → Runs body s' fun _ t => view t = v)
    (hk : ∀ a, a ∉ addrs → memRead v.mem a = memRead s.mem a) : Completes i s v.done addrs := by
  obtain ⟨_, rfl, h⟩ := completes_of (Q := (· = v)) hi hr hb (by rintro _ rfl; exact hk)
  exact h

/-- An instruction that takes a value `x` with `R x`, which leaves the view `w`, and then makes it the view `f x`. -/
theorem completes_of_take {α : Type} {i : Instr} {m : EU α} {k : α → EU Unit} {s : State} {R : α → Prop} {w : View}
    {f : α → View} {addrs : List Nat} (hi : exec i s = complete (m >>= k) s) (hr : Ready s)
    (hm : ∀ s', Ready s' → view s' = view s → Runs m s' fun x t => R x ∧ view t = w)
    (hk : ∀ x t, Ready t → view t = w → Runs (k x) t fun _ u => view u = f x)
    (hmem : ∀ x a, a ∉ addrs → memRead (f x).mem a = memRead s.mem a) :
    ∃ x, R x ∧ Completes i s (f x).done addrs := by
  have hb : ∀ s', Ready s' → view s' = view s → Runs (m >>= k) s' fun _ t => ∃ x, R x ∧ view t = f x :=
    fun s' h1 h2 => (hm s' h1 h2).bind fun x t ht hx => (hk x t ht hx.2).imp fun _ _ hu => ⟨x, hx.1, hu⟩
  obtain ⟨_, ⟨x, hx, rfl⟩, h⟩ := completes_of (Q := fun v => ∃ x, R x ∧ v = f x) hi hr hb
    (by rintro _ ⟨x, -, rfl⟩; exact hmem x)
  exact ⟨x, hx, h⟩

end Sys2Proof.Machine
end

section
/-! PROOFS. The data transfer instructions (40_data_transfer.md R300 to R321): each form's work, written with the
operands it has, then what it leaves of the view. -/

namespace Sys2Proof.Machine

open Sys2Proof.Claims

/-! ### Sources -/

/-- Take the value of a byte source. -/
def readSrc8 : Src8 → EU Byte
  | .imm b => pure b
  | .at p => readPlace8 p

/-- Take the value of a word source. -/
def readSrc16 : Src16 → EU Word
  | .imm w => pure w
  | .at p => readPlace16 p
  | .seg r => readS fun s => sreg s.cpu r

theorem Runs.readSrc8 {src : Src8} {s : State} (hr : Ready s) :
    Runs (readSrc8 src) s fun b t => src.Is (view s) b ∧ view t = view s := by
  match src with
  | .imm b => exact Runs.pure hr ⟨rfl, rfl⟩
  | .at p => exact Runs.readPlace8 hr

theorem Runs.readSrc16 {src : Src16} {s : State} (hr : Ready s) :
    Runs (readSrc16 src) s fun w t => src.Is (view s) w ∧ view t = view s := by
  match src with
  | .imm w => exact Runs.pure hr ⟨rfl, rfl⟩
  | .at p => exact Runs.readPlace16 hr
  | .seg r => exact Runs.readS hr ⟨rfl, rfl⟩

/-! ### MOV -/

/-- Every byte form of MOV takes its source and writes its destination (R300). -/
theorem exec_movByte {s : State} {i : Instr} {dst : Place Reg8} {src : Src8} (h : movByte s i = some (dst, src))
    (ha : admitted s.params i) : exec i s = complete (readSrc8 src >>= writePlace8 dst) s := by
  cases i with
  | movEbGb | movGbEb | movEbIb | movR8Ib | movAlOb | movObAl =>
    cases h
    exact complete_congr fun _ => rfl
  | movEbIbAlias =>
    cases h
    exact (ifAdmitted_of_admitted ha rfl).trans (complete_congr fun _ => rfl)
  | _ => cases h

/-- Every word form of MOV, and the store of a segment register (R300, R301). -/
theorem exec_movWord {s : State} {i : Instr} {dst : Place Reg16} {src : Src16} (h : movWord s i = some (dst, src))
    (ha : admitted s.params i) : exec i s = complete (readSrc16 src >>= writePlace16 dst) s := by
  cases i with
  | movEwGw | movGwEw | movEwIw | movR16Iw | movAxOw | movOwAx | movEwSw =>
    cases h
    exact complete_congr fun _ => rfl
  | movEwIwAlias | movEwSwAlias =>
    cases h
    exact (ifAdmitted_of_admitted ha rfl).trans (complete_congr fun _ => rfl)
  | _ => cases h

/-- Settles O29: the source is taken, which changes nothing, and the destination is written. -/
theorem movForms : Obligations.MovForms := by
  constructor
  · intro s i dst src h ha hr
    exact completes_of_take (exec_movByte h ha) hr (w := view s) (fun _ hr' hv => hv ▸ Runs.readSrc8 hr')
      (fun _ _ ht hv => hv ▸ Runs.writePlace8 ht) fun _ _ => write8_kept
  · intro s i dst src h ha hr
    exact completes_of_take (exec_movWord h ha) hr (w := view s) (fun _ hr' hv => hv ▸ Runs.readSrc16 hr')
      (fun _ _ ht hv => hv ▸ Runs.writePlace16 ht) fun _ _ => write16_kept

/-! ### The loads of a segment register -/

/-- Load a segment register and set the interrupt shadow (R302, R304, R813). -/
def loadSreg (r : SReg) (w : Word) : EU Unit := do
  modifyCpu (setSreg r w)
  setShadow

theorem Runs.loadSreg {r : SReg} {w : Word} {s : State} (hr : Ready s) :
    Runs (loadSreg r w) s fun _ t =>
      view t = ((view s).setCpu (setSreg r w)).setEu fun e => { e with shadow := true } :=
  Runs.modifyCpu_bind (Runs.setShadow (s := { s with cpu := setSreg r w s.cpu }) hr)

/-- Every MOV to a segment register takes its operand and loads the register (R302). -/
theorem exec_movSeg {s : State} {i : Instr} {r : SReg} {p : Place Reg16} (h : movSeg s i = some (r, p))
    (ha : admitted s.params i) : exec i s = complete (readPlace16 p >>= loadSreg r) s := by
  cases i with
  | movSwEw =>
    cases h
    exact complete_congr fun _ => rfl
  | movSwEwAlias =>
    cases h
    exact (ifAdmitted_of_admitted ha rfl).trans (complete_congr fun _ => rfl)
  | _ => cases h

/-- Settles O30: the word is taken from the operand or from the stack, and the segment register is loaded. -/
theorem segmentLoads : Obligations.SegmentLoads := by
  constructor
  · intro s i r p h ha hr
    exact completes_of_take (exec_movSeg h ha) hr (w := view s) (fun _ hr' hv => hv ▸ Runs.readPlace16 hr')
      (fun _ _ ht hv => hv ▸ Runs.loadSreg ht) fun _ _ _ => rfl
  · intro s r hr
    have hi : exec (.popSreg r) s = complete (pop >>= loadSreg r) s := rfl
    exact completes_of_take hi hr (w := (view s).addSp 2) (fun _ hr' hv => hv ▸ Runs.pop hr')
      (fun _ _ ht hv => hv ▸ Runs.loadSreg ht) fun _ _ _ => rfl

/-! ### The stack -/

/-- PUSH of a register: for SP, the value after the decrement (R303). -/
theorem exec_pushR16Op (s : State) (r : Reg16) : complete (pushR16Op r) s =
    complete (readSrc16 (if r = .sp then .imm (s.cpu.sp - 2) else .at (.reg r)) >>= push) s := by
  by_cases h : r = .sp
  · subst h
    exact complete_congr fun _ => rfl
  · rw [if_neg h]
    refine complete_congr fun l => ?_
    show push (if r = .sp then _ else _) _ = push _ _
    rw [if_neg h]

/-- PUSH of an r/m operand: the register form is PUSH of that register (R303). -/
theorem exec_pushEwOp (s : State) (e : Rm Reg16) : complete (pushEwOp e) s =
    complete (readSrc16 (if e = .reg .sp then .imm (s.cpu.sp - 2) else .at (place s e)) >>= push) s := by
  cases e with
  | reg r => simpa only [Rm.reg.injEq, place, pushEwOp] using exec_pushR16Op s r
  | mem m => exact complete_congr fun _ => rfl

/-- Every push takes its source and pushes it (R303, R312). -/
theorem exec_pushed {s : State} {i : Instr} {src : Src16} (h : pushed s i = some src) (ha : admitted s.params i) :
    exec i s = complete (readSrc16 src >>= push) s := by
  cases i with
  | pushR16 r =>
    cases h
    exact exec_pushR16Op s r
  | pushEw e =>
    cases h
    exact exec_pushEwOp s e
  | pushEwAlias e =>
    cases h
    exact (ifAdmitted_of_admitted ha rfl).trans (exec_pushEwOp s e)
  | pushSreg | pushf =>
    cases h
    exact complete_congr fun _ => rfl
  | _ => cases h

/-- Settles O31: the source is taken, and it is pushed. -/
theorem pushes : Obligations.Pushes := by
  intro s i src h ha hr
  exact completes_of_take (exec_pushed h ha) hr (w := view s) (fun _ hr' hv => hv ▸ Runs.readSrc16 hr')
    (fun _ _ ht hv => hv ▸ Runs.push ht) fun _ _ => push_kept (v := view s)

/-- Every pop into a register or an r/m operand writes the place that the operand has before SP changes (R304). -/
theorem exec_popped {s : State} {i : Instr} {dst : Place Reg16} (h : popped s i = some dst)
    (ha : admitted s.params i) : exec i s = complete (pop >>= writePlace16 dst) s := by
  cases i with
  | popR16 | popEw =>
    cases h
    exact complete_congr fun _ => rfl
  | popEwAlias =>
    cases h
    exact (ifAdmitted_of_admitted ha rfl).trans (complete_congr fun _ => rfl)
  | _ => cases h

/-- Settles O32: the word is popped, and it is written to the destination or to the flags. -/
theorem pops : Obligations.Pops := by
  constructor
  · intro s i dst h ha hr
    exact completes_of_take (exec_popped h ha) hr (w := (view s).addSp 2) (fun _ hr' hv => hv ▸ Runs.pop hr')
      (fun _ _ ht hv => hv ▸ Runs.writePlace16 ht) fun _ _ => write16_kept
  · intro s hr
    have hi : exec .popf s = complete (pop >>= fun w => modifyFlags fun _ => setFlagsWord w) s := rfl
    exact completes_of_take hi hr (w := (view s).addSp 2) (fun _ hr' hv => hv ▸ Runs.pop hr')
      (fun _ _ ht hv => hv ▸ Runs.modifyFlags ht rfl) fun _ _ _ => rfl

/-! ### XCHG -/

/-- The second half of an exchange: the register's value goes to the operand and the operand's to the register. -/
def exchange8 (p : Place Reg8) (g : Reg8) (a : Byte) : EU Unit := do
  let b ← getReg8 g
  writePlace8 p b
  putReg8 g a

/-- The same for a word operand. -/
def exchange16 (p : Place Reg16) (g : Reg16) (a : Word) : EU Unit := do
  let b ← getReg16 g
  writePlace16 p b
  putReg16 g a

theorem Runs.exchange8 {p : Place Reg8} {g : Reg8} {a : Byte} {s : State} {v : View} (hr : Ready s)
    (hv : view s = v) :
    Runs (exchange8 p g a) s fun _ t => view t = (v.write8 p (reg8 v.cpu g)).write8 (.reg g) a := by
  subst hv
  exact Runs.readS_bind ((Runs.writePlace8 hr).bind fun _ _ ht hv => hv ▸ Runs.writePlace8 (p := .reg g) ht)

theorem Runs.exchange16 {p : Place Reg16} {g : Reg16} {a : Word} {s : State} {v : View} (hr : Ready s)
    (hv : view s = v) :
    Runs (exchange16 p g a) s fun _ t => view t = (v.write16 p (reg16 v.cpu g)).write16 (.reg g) a := by
  subst hv
  exact Runs.readS_bind ((Runs.writePlace16 hr).bind fun _ _ ht hv => hv ▸ Runs.writePlace16 (p := .reg g) ht)

/-- Settles O33: the r/m operand is taken, and then both are written. -/
theorem exchanges : Obligations.Exchanges := by
  refine ⟨fun s e g hr => ?_, fun s e g hr => ?_, fun s r hr => ?_⟩
  · have hi : exec (.xchgEbGb e g) s = complete (readPlace8 (place s e) >>= exchange8 (place s e) g) s :=
      complete_congr fun _ => rfl
    exact completes_of_take hi hr (w := view s) (fun _ hr' hv => hv ▸ Runs.readPlace8 hr')
      (fun _ _ => Runs.exchange8) fun _ _ => write8_kept
  · have hi : exec (.xchgEwGw e g) s = complete (readPlace16 (place s e) >>= exchange16 (place s e) g) s :=
      complete_congr fun _ => rfl
    exact completes_of_take hi hr (w := view s) (fun _ hr' hv => hv ▸ Runs.readPlace16 hr')
      (fun _ _ => Runs.exchange16) fun _ _ => write16_kept
  · refine completes_of_view rfl hr (fun s' hr' hv => Runs.modifyCpu hr' ?_) fun _ _ => rfl
    rw [← hv, ← view_cpu_eq hv]
    rfl

/-! ### Table and address loads -/

/-- The offset of a far pointer goes to a register and its segment to a segment register (R308, R309). -/
def putFarPointer (sel : SReg) (r : Reg16) (x : Word × Word) : EU Unit := do
  putReg16 r x.1
  modifyCpu (setSreg sel x.2)

theorem Runs.putFarPointer {sel : SReg} {r : Reg16} {x : Word × Word} {s : State} (hr : Ready s) :
    Runs (putFarPointer sel r x) s fun _ t =>
      view t = ((view s).write16 (.reg r) x.1).setCpu (setSreg sel x.2) :=
  Runs.modifyCpu_bind (Runs.modifyCpu hr rfl)

/-- LDS and LES: the place of the pointer is that before the load (R308, R309). -/
theorem completes_loadFarPointer {i : Instr} {s : State} {sel : SReg} {r : Reg16} {m : MemOp}
    (hi : exec i s = complete (loadFarPointer sel r m) s) (hr : Ready s) :
    ∃ off seg, (view s).Holds16 (segValue s (defaultSeg m)) (effAddr s.cpu m) off ∧
      (view s).Holds16 (segValue s (defaultSeg m)) (effAddr s.cpu m + 2) seg ∧
      Completes i s (((view s).write16 (.reg r) off).setCpu (setSreg sel seg)).done [] := by
  have hi' : exec i s = complete
      (readFarPointer (segValue s (defaultSeg m)) (effAddr s.cpu m) >>= putFarPointer sel r) s :=
    hi.trans (complete_congr fun _ => rfl)
  have hread : ∀ s', Ready s' → view s' = view s →
      Runs (readFarPointer (segValue s (defaultSeg m)) (effAddr s.cpu m)) s' fun x t =>
        ((view s).Holds16 (segValue s (defaultSeg m)) (effAddr s.cpu m) x.1 ∧
          (view s).Holds16 (segValue s (defaultSeg m)) (effAddr s.cpu m + 2) x.2) ∧ view t = view s := by
    intro s' hr' hv
    rw [← hv]
    exact (Runs.readFarPointer hr').imp fun _ _ ⟨hoff, hseg, ht⟩ => ⟨⟨hoff, hseg⟩, ht⟩
  obtain ⟨x, ⟨hoff, hseg⟩, h⟩ := completes_of_take (addrs := []) hi' hr hread
    (fun _ _ ht hv => hv ▸ Runs.putFarPointer ht) fun _ _ _ => rfl
  exact ⟨x.1, x.2, hoff, hseg, h⟩

/-- Settles O34: XLAT reads one byte and LDS and LES a far pointer, at addresses fixed before the load; LEA reads
nothing. -/
theorem addressLoads : Obligations.AddressLoads := by
  refine fun s hr => ⟨?_, fun r m => ?_, fun r m => completes_loadFarPointer rfl hr,
    fun r m => completes_loadFarPointer rfl hr⟩
  · have hi : exec .xlat s = complete
        (memRead8 (segValue s .ds) (s.cpu.bx + (reg8 s.cpu .al).setWidth 16) >>= putReg8 .al) s :=
      complete_congr fun _ => rfl
    exact completes_of_take hi hr (w := view s) (fun _ hr' hv => hv ▸ Runs.memRead8 hr')
      (fun _ _ ht hv => hv ▸ Runs.writePlace8 (p := .reg .al) ht) fun _ _ _ => rfl
  · have hi : exec (.lea r m) s = complete (putReg16 r (effAddr s.cpu m)) s := complete_congr fun _ => rfl
    exact completes_of_view hi hr (fun _ hr' hv => hv ▸ Runs.writePlace16 (p := .reg r) hr') fun _ _ => rfl

/-! ### Ports -/

@[simp] theorem portRead_mem (v : View) (p : Word) : (v.portRead p).mem = v.mem := by
  unfold View.portRead
  split <;> rfl

@[simp] theorem portWrite_mem (v : View) (p : Word) (b : Byte) : (v.portWrite p b).mem = v.mem := by
  unfold View.portWrite
  split
  · rfl
  · split <;> rfl

/-- An instruction that begins with the value of a register. -/
theorem complete_getReg16 (r : Reg16) (k : Word → EU Unit) (s : State) :
    complete (getReg16 r >>= k) s = complete (k (reg16 s.cpu r)) s := complete_congr fun _ => rfl

/-- IN of a byte (R320). -/
theorem completes_inAl {i : Instr} {s : State} {p : Word} (hi : exec i s = complete (inAl p) s) (hr : Ready s) :
    ∃ v, (view s).PortHolds p v ∧ Completes i s (((view s).portRead p).write8 (.reg .al) v).done [] :=
  completes_of_take hi hr (w := (view s).portRead p) (fun _ hr' hv => hv ▸ Runs.portRead8 hr')
    (fun _ _ ht hv => hv ▸ Runs.writePlace8 (p := .reg .al) ht) fun _ _ _ => by simp [View.write8]

/-- IN of a word: the low byte first, the high byte from the next port (R320). -/
theorem completes_inAx {i : Instr} {s : State} {p : Word} (hi : exec i s = complete (inAx p) s) (hr : Ready s) :
    ∃ v, (view s).PortHolds p (loByte v) ∧ ((view s).portRead p).PortHolds (p + 1) (hiByte v) ∧
      Completes i s ((((view s).portRead p).portRead (p + 1)).write16 (.reg .ax) v).done [] := by
  have hread : ∀ s', Ready s' → view s' = view s → Runs (portRead16 p) s' fun v t =>
      ((view s).PortHolds p (loByte v) ∧ ((view s).portRead p).PortHolds (p + 1) (hiByte v)) ∧
        view t = ((view s).portRead p).portRead (p + 1) := by
    intro s' hr' hv
    rw [← hv]
    exact (Runs.portRead16 hr').imp fun _ _ ⟨hlo, hhi, ht⟩ => ⟨⟨hlo, hhi⟩, ht⟩
  obtain ⟨v, ⟨hlo, hhi⟩, h⟩ := completes_of_take (addrs := []) hi hr hread
    (fun _ _ ht hv => hv ▸ Runs.writePlace16 (p := .reg .ax) ht) fun _ _ _ => by simp [View.write16]
  exact ⟨v, hlo, hhi, h⟩

/-- OUT of AL (R321). -/
theorem completes_outAl {i : Instr} {s : State} {p : Word} (hi : exec i s = complete (outAl p) s) (hr : Ready s) :
    Completes i s ((view s).portWrite p (reg8 s.cpu .al)).done [] :=
  completes_of_view (hi.trans (complete_congr (body' := portWrite8 p (reg8 s.cpu .al)) fun _ => rfl)) hr
    (fun _ hr' hv => hv ▸ Runs.portWrite8 hr') fun _ _ => by simp

/-- OUT of AX: AL to the port, then AH to the next (R321). -/
theorem completes_outAx {i : Instr} {s : State} {p : Word} (hi : exec i s = complete (outAx p) s) (hr : Ready s) :
    Completes i s (((view s).portWrite p (reg8 s.cpu .al)).portWrite (p + 1) (reg8 s.cpu .ah)).done [] :=
  completes_of_view (hi.trans (complete_congr (body' := portWrite16 p s.cpu.ax) fun _ => rfl)) hr
    (fun _ hr' hv => hv ▸ Runs.portWrite16 hr') fun _ _ => by simp

/-- Settles O35: each form is the transfer through its port, an immediate or DX. -/
theorem portTransfers : Obligations.PortTransfers := by
  intro s hr
  refine ⟨?_, ?_, ?_, ?_⟩
  · rintro i p (⟨b, rfl, rfl⟩ | ⟨rfl, rfl⟩)
    · exact completes_inAl rfl hr
    · exact completes_inAl (complete_getReg16 .dx inAl s) hr
  · rintro i p (⟨b, rfl, rfl⟩ | ⟨rfl, rfl⟩)
    · exact completes_inAx rfl hr
    · exact completes_inAx (complete_getReg16 .dx inAx s) hr
  · rintro i p (⟨b, rfl, rfl⟩ | ⟨rfl, rfl⟩)
    · exact completes_outAl rfl hr
    · exact completes_outAl (complete_getReg16 .dx outAl s) hr
  · rintro i p (⟨b, rfl, rfl⟩ | ⟨rfl, rfl⟩)
    · exact completes_outAx rfl hr
    · exact completes_outAx (complete_getReg16 .dx outAx s) hr

end Sys2Proof.Machine
end

section
/-! PROOFS. The ALU's functions (41_arithmetic.md R400 to R407): both results as the integer sum or difference wrapped
to the width, from which OF and the two-stage description follow; and the decimal adjust after an addition (R422). -/

namespace Sys2Proof.Machine

open Sys2Proof.Claims

/-! ### Sums and differences -/

/-- What an integer of one bit more than the width reads as when it is cut to the width: off by `2 ^ w` when it is out
of the signed range. -/
def wrapped (w : Nat) (n : Int) : Int :=
  if n < -(2 ^ (w - 1)) then n + 2 ^ w else if 2 ^ (w - 1) ≤ n then n - 2 ^ w else n

theorem two_pow_eq_double {w : Nat} (hw : 0 < w) : (2 : Int) ^ w = 2 * 2 ^ (w - 1) := by
  rw [← pow_succ', Nat.sub_add_cancel hw]

theorem toInt_ofInt_eq_wrapped {w : Nat} (hw : 0 < w) {n : Int} (hlo : -(2 ^ w) ≤ n) (hhi : n < 2 ^ w) :
    (BitVec.ofInt w n).toInt = wrapped w n := by
  have hpow := two_pow_eq_double hw
  have hup : BitVec.ofInt w (n + 2 ^ w) = BitVec.ofInt w n :=
    BitVec.eq_of_toInt_eq (by simpa using Int.add_bmod_right n (2 ^ w))
  have hdown : BitVec.ofInt w (n - 2 ^ w) = BitVec.ofInt w n :=
    BitVec.eq_of_toInt_eq (by simpa using Int.sub_bmod_right n (2 ^ w))
  unfold wrapped
  split_ifs
  · rw [← hup, BitVec.toInt_ofInt_eq_self hw (by omega) (by omega)]
  · rw [← hdown, BitVec.toInt_ofInt_eq_self hw (by omega) (by omega)]
  · exact BitVec.toInt_ofInt_eq_self hw (by omega) (by omega)

section Width

variable {w : Nat} (a b : BitVec w) (c : Bool) (f : Flags)

theorem addAlu_result : (addAlu a b c f).result = a + b + BitVec.ofNat w c.toNat := by
  simp [addAlu, BitVec.ofNat_add]

theorem subAlu_result : (subAlu a b c f).result = a - b - BitVec.ofNat w c.toNat := by
  simp only [subAlu, Int.sub_eq_add_neg, BitVec.ofInt_add, BitVec.ofInt_neg, BitVec.ofInt_natCast, BitVec.ofNat_toNat,
    BitVec.setWidth_eq, BitVec.sub_eq_add_neg]

theorem addAlu_toNat : (addAlu a b c f).result.toNat = (a.toNat + b.toNat + c.toNat) % 2 ^ w := by
  simp [addAlu]

theorem subAlu_toNat :
    ((subAlu a b c f).result.toNat : Int) = ((a.toNat : Int) - b.toNat - c.toNat) % 2 ^ w := by
  have hpos : (0 : Int) < 2 ^ w := by positivity
  simp [subAlu, BitVec.toNat_ofInt, Int.emod_nonneg _ hpos.ne']

/-- The signed sum, wrapped. -/
theorem addAlu_signed : (addAlu a b c f).result = BitVec.ofInt w (a.toInt + b.toInt + c.toNat) := by
  simp [addAlu_result, BitVec.ofInt_add]

/-- The signed difference, wrapped. -/
theorem subAlu_signed : (subAlu a b c f).result = BitVec.ofInt w (a.toInt - b.toInt - c.toNat) := by
  simp [subAlu_result, Int.sub_eq_add_neg, BitVec.ofInt_add, BitVec.ofInt_neg, BitVec.sub_eq_add_neg]

theorem addAlu_toInt (hw : 0 < w) :
    (addAlu a b c f).result.toInt = wrapped w (a.toInt + b.toInt + c.toNat) := by
  have ha := a.le_toInt
  have ha' := a.toInt_lt
  have hb := b.le_toInt
  have hb' := b.toInt_lt
  have hc := c.toNat_le
  have hpow := two_pow_eq_double hw
  rw [addAlu_signed, toInt_ofInt_eq_wrapped hw (by omega) (by omega)]

theorem subAlu_toInt (hw : 0 < w) :
    (subAlu a b c f).result.toInt = wrapped w (a.toInt - b.toInt - c.toNat) := by
  have ha := a.le_toInt
  have ha' := a.toInt_lt
  have hb := b.le_toInt
  have hb' := b.toInt_lt
  have hc := c.toNat_le
  have hpow := two_pow_eq_double hw
  rw [subAlu_signed, toInt_ofInt_eq_wrapped hw (by omega) (by omega)]

/-- OF after an addition: the sum is out of the signed range (R400). -/
theorem addAlu_ovf (hw : 0 < w) : (addAlu a b c f).flags.ovf = true ↔
    a.toInt + b.toInt + c.toNat < -(2 ^ (w - 1)) ∨ 2 ^ (w - 1) ≤ a.toInt + b.toInt + c.toNat := by
  have hovf : (addAlu a b c f).flags.ovf = ((a.msb == b.msb) && ((addAlu a b c f).result.msb != a.msb)) := rfl
  have ha := a.le_toInt
  have ha' := a.toInt_lt
  have hb := b.le_toInt
  have hb' := b.toInt_lt
  have hc := c.toNat_le
  have hpow := two_pow_eq_double hw
  simp only [hovf, Bool.and_eq_true, beq_iff_eq, bne_iff_ne, BitVec.msb_eq_toInt, ne_eq, decide_eq_decide,
    addAlu_toInt a b c f hw]
  unfold wrapped
  split_ifs <;> omega

/-- OF after a subtraction: the difference is out of the signed range (R401). -/
theorem subAlu_ovf (hw : 0 < w) : (subAlu a b c f).flags.ovf = true ↔
    a.toInt - b.toInt - c.toNat < -(2 ^ (w - 1)) ∨ 2 ^ (w - 1) ≤ a.toInt - b.toInt - c.toNat := by
  have hovf : (subAlu a b c f).flags.ovf = ((a.msb != b.msb) && ((subAlu a b c f).result.msb != a.msb)) := rfl
  have ha := a.le_toInt
  have ha' := a.toInt_lt
  have hb := b.le_toInt
  have hb' := b.toInt_lt
  have hc := c.toNat_le
  have hpow := two_pow_eq_double hw
  simp only [hovf, Bool.and_eq_true, bne_iff_ne, BitVec.msb_eq_toInt, ne_eq, decide_eq_decide,
    subAlu_toInt a b c f hw]
  unfold wrapped
  split_ifs <;> omega

theorem addAlu_cf : (addAlu a b c f).flags.cf = true ↔ 2 ^ w ≤ a.toNat + b.toNat + c.toNat := decide_eq_true_iff

theorem subAlu_cf : (subAlu a b c f).flags.cf = true ↔ a.toNat < b.toNat + c.toNat := decide_eq_true_iff

theorem addAlu_af : (addAlu a b c f).flags.af = true ↔ 16 ≤ a.toNat % 16 + b.toNat % 16 + c.toNat :=
  decide_eq_true_iff

theorem subAlu_af : (subAlu a b c f).flags.af = true ↔ a.toNat % 16 < b.toNat % 16 + c.toNat :=
  decide_eq_true_iff

end Width

/-! ### The rules of R400 to R403 -/

theorem addRule_of_pos {w : Nat} (hw : 0 < w) : addRule w := fun a b c f =>
  ⟨addAlu_toNat a b c f, addAlu_cf a b c f, addAlu_af a b c f, addAlu_ovf a b c f hw, rfl, decide_eq_true_iff, rfl, rfl,
    rfl, rfl⟩

theorem subRule_of_pos {w : Nat} (hw : 0 < w) : subRule w := fun a b c f =>
  ⟨subAlu_toNat a b c f, subAlu_cf a b c f, subAlu_af a b c f, subAlu_ovf a b c f hw, rfl, decide_eq_true_iff, rfl, rfl,
    rfl, rfl⟩

theorem aluRule_all (w : Nat) : aluRule w := by
  refine fun a b af f => ⟨rfl, rfl, rfl, rfl, rfl, ?_⟩
  rintro op r (⟨rfl, rfl⟩ | ⟨rfl, rfl⟩ | ⟨rfl, rfl⟩) <;> rfl

/-- Settles O12: OF is read off the signs of the wrapped result, at any width. -/
theorem additionSubtractionFlags : Obligations.AdditionSubtractionFlags :=
  ⟨⟨addRule_of_pos (by decide), addRule_of_pos (by decide)⟩, ⟨subRule_of_pos (by decide), subRule_of_pos (by decide)⟩,
    aluRule_all 8, aluRule_all 16⟩

/-! ### The carry in two stages -/

/-- What the flags of R402 say of a result, whatever made it. -/
def ResultFlagsOf {w : Nat} (o : AluOut w) : Prop :=
  o.flags.sf = o.result.msb ∧ o.flags.zf = decide (o.result = 0) ∧ o.flags.pf = parity8 o.result

/-- Equal results have equal SF, ZF and PF (R402). -/
theorem szp_eq_of_result_eq {w : Nat} {o o' : AluOut w} (ho : ResultFlagsOf o) (ho' : ResultFlagsOf o')
    (h : o.result = o'.result) :
    o.flags.sf = o'.flags.sf ∧ o.flags.zf = o'.flags.zf ∧ o.flags.pf = o'.flags.pf := by
  obtain ⟨hs, hz, hp⟩ := ho
  obtain ⟨hs', hz', hp'⟩ := ho'
  rw [hs, hz, hp, hs', hz', hp', h]
  exact ⟨rfl, rfl, rfl⟩

/-- When one of three bits is the exclusive or of the others. -/
theorem eq_xor_iff (x y z : Bool) : x = (y ^^ z) ↔ (x = true ↔ ¬(y = true ↔ z = true)) := by
  cases x <;> cases y <;> cases z <;> decide

section TwoStage

variable {w : Nat} (a b : BitVec w) (c : Bool) (f g : Flags)

theorem addAlu_twoStage_result :
    (addAlu a b c f).result = (addAlu (addAlu a b false f).result 0 c g).result := by
  simp [addAlu_result]

theorem subAlu_twoStage_result :
    (subAlu a b c f).result = (subAlu (subAlu a b false f).result 0 c g).result := by
  simp [subAlu_result]

/-- The difference without a borrow, as a natural number. -/
theorem subAlu_false_toNat : (subAlu a b false f).result.toNat = (2 ^ w - b.toNat + a.toNat) % 2 ^ w := by
  simp [subAlu_result, BitVec.toNat_sub]

/-- A carry out of the second stage means that the first gave `2 ^ w - 1`, without a carry. -/
theorem addAlu_twoStage_cf : (addAlu a b c f).flags.cf =
    ((addAlu a b false f).flags.cf || (addAlu (addAlu a b false f).result 0 c g).flags.cf) := by
  have ha := a.isLt
  have hb := b.isLt
  have hc := c.toNat_le
  rw [Bool.eq_iff_iff, Bool.or_eq_true, addAlu_cf, addAlu_cf, addAlu_cf, addAlu_toNat]
  simp only [BitVec.ofNat_eq_ofNat, BitVec.toNat_zero, Bool.toNat_false, Nat.add_zero]
  rcases Nat.lt_or_ge (a.toNat + b.toNat) (2 ^ w) with h | h
  · rw [Nat.mod_eq_of_lt h]
    omega
  · rw [Nat.mod_eq_sub_mod h, Nat.mod_eq_of_lt (by omega)]
    omega

/-- A borrow in the second stage means that the first gave 0, without a borrow. -/
theorem subAlu_twoStage_cf : (subAlu a b c f).flags.cf =
    ((subAlu a b false f).flags.cf || (subAlu (subAlu a b false f).result 0 c g).flags.cf) := by
  have ha := a.isLt
  have hb := b.isLt
  have hc := c.toNat_le
  rw [Bool.eq_iff_iff, Bool.or_eq_true, subAlu_cf, subAlu_cf, subAlu_cf, subAlu_false_toNat]
  simp only [BitVec.ofNat_eq_ofNat, BitVec.toNat_zero, Bool.toNat_false, Nat.add_zero]
  rcases Nat.lt_or_ge a.toNat b.toNat with h | h
  · rw [Nat.mod_eq_of_lt (by omega)]
    omega
  · rw [Nat.mod_eq_sub_mod (by omega), Nat.mod_eq_of_lt (by omega)]
    omega

theorem addAlu_twoStage_af (hw : 16 ∣ 2 ^ w) : (addAlu a b c f).flags.af =
    ((addAlu a b false f).flags.af || (addAlu (addAlu a b false f).result 0 c g).flags.af) := by
  have hc := c.toNat_le
  rw [Bool.eq_iff_iff, Bool.or_eq_true, addAlu_af, addAlu_af, addAlu_af, addAlu_toNat, Nat.mod_mod_of_dvd _ hw]
  simp only [BitVec.ofNat_eq_ofNat, BitVec.toNat_zero, Bool.toNat_false]
  omega

theorem subAlu_twoStage_af (hw : 16 ∣ 2 ^ w) : (subAlu a b c f).flags.af =
    ((subAlu a b false f).flags.af || (subAlu (subAlu a b false f).result 0 c g).flags.af) := by
  have hb := b.isLt
  have hc := c.toNat_le
  rw [Bool.eq_iff_iff, Bool.or_eq_true, subAlu_af, subAlu_af, subAlu_af, subAlu_false_toNat, Nat.mod_mod_of_dvd _ hw]
  simp only [BitVec.ofNat_eq_ofNat, BitVec.toNat_zero, Bool.toNat_false]
  omega

/-- Both stages overflow exactly when the first leaves the range at one end and the carry brings the sum back. -/
theorem addAlu_twoStage_ovf (hw : 0 < w) : (addAlu a b c f).flags.ovf =
    ((addAlu a b false f).flags.ovf ^^ (addAlu (addAlu a b false f).result 0 c g).flags.ovf) := by
  have ha := a.le_toInt
  have ha' := a.toInt_lt
  have hb := b.le_toInt
  have hb' := b.toInt_lt
  have hc := c.toNat_le
  have hpow := two_pow_eq_double hw
  rw [eq_xor_iff, addAlu_ovf _ _ _ _ hw, addAlu_ovf _ _ _ _ hw, addAlu_ovf _ _ _ _ hw, addAlu_toInt _ _ _ _ hw]
  simp only [BitVec.ofNat_eq_ofNat, BitVec.toInt_zero, Bool.toNat_false]
  unfold wrapped
  split_ifs <;> omega

/-- The same of a subtraction. -/
theorem subAlu_twoStage_ovf (hw : 0 < w) : (subAlu a b c f).flags.ovf =
    ((subAlu a b false f).flags.ovf ^^ (subAlu (subAlu a b false f).result 0 c g).flags.ovf) := by
  have ha := a.le_toInt
  have ha' := a.toInt_lt
  have hb := b.le_toInt
  have hb' := b.toInt_lt
  have hc := c.toNat_le
  have hpow := two_pow_eq_double hw
  rw [eq_xor_iff, subAlu_ovf _ _ _ _ hw, subAlu_ovf _ _ _ _ hw, subAlu_ovf _ _ _ _ hw, subAlu_toInt _ _ _ _ hw]
  simp only [BitVec.ofNat_eq_ofNat, BitVec.toInt_zero, Bool.toNat_false]
  unfold wrapped
  split_ifs <;> omega

end TwoStage

/-- The two-stage description at every width that holds a whole number of low digits of four bits. -/
theorem twoStage_of_dvd {w : Nat} (hpos : 0 < w) (hw : 16 ∣ 2 ^ w) : twoStage w := by
  intro a b c f
  constructor
  · have hres := addAlu_twoStage_result a b c f (addAlu a b false f).flags
    exact ⟨hres, addAlu_twoStage_cf a b c f _, addAlu_twoStage_af a b c f _ hw, addAlu_twoStage_ovf a b c f _ hpos,
      szp_eq_of_result_eq ⟨rfl, rfl, rfl⟩ ⟨rfl, rfl, rfl⟩ hres⟩
  · have hres := subAlu_twoStage_result a b c f (subAlu a b false f).flags
    exact ⟨hres, subAlu_twoStage_cf a b c f _, subAlu_twoStage_af a b c f _ hw, subAlu_twoStage_ovf a b c f _ hpos,
      szp_eq_of_result_eq ⟨rfl, rfl, rfl⟩ ⟨rfl, rfl, rfl⟩ hres⟩

/-- Settles O13: at either width the result, and each flag by its own lemma. -/
theorem carryFolding : Obligations.CarryFolding :=
  ⟨twoStage_of_dvd (by decide) (by decide), twoStage_of_dvd (by decide) (by decide)⟩

/-! ### The decimal adjust -/

/-- Whether DAA and DAS adjust the low digit: it exceeds 9, or AF is 1 (R422, R423). -/
def adjustsLow (al : Byte) (f : Flags) : Bool := decide (9 < al.toNat % 16) || f.af

/-- Whether DAA and DAS adjust the high digit: AL exceeded 99, or CF is 1 (R422, R423). -/
def adjustsHigh (al : Byte) (f : Flags) : Bool := decide (0x99 < al.toNat) || f.cf

/-- The byte that DAA adds and DAS subtracts. -/
def adjustment (al : Byte) (f : Flags) : Byte :=
  BitVec.ofNat 8 (6 * (adjustsLow al f).toNat + 0x60 * (adjustsHigh al f).toNat)

theorem daaAlu_eq (al : Byte) (f : Flags) :
    daaAlu al f = ⟨al + adjustment al f, { f with af := adjustsLow al f, cf := adjustsHigh al f }⟩ := by
  have hres : (daaAlu al f).result = (if adjustsHigh al f then (if adjustsLow al f then al + 6 else al) + 0x60
    else if adjustsLow al f then al + 6 else al) := rfl
  have hval : (daaAlu al f).result = al + adjustment al f := by
    rw [hres, adjustment]
    cases adjustsLow al f <;> cases adjustsHigh al f <;> simp [BitVec.add_assoc]
  exact congrArg (AluOut.mk · _) hval

theorem dasAlu_eq (al : Byte) (f : Flags) :
    dasAlu al f = ⟨al - adjustment al f, { f with af := adjustsLow al f, cf := adjustsHigh al f }⟩ := by
  have hres : (dasAlu al f).result = (if adjustsHigh al f then (if adjustsLow al f then al - 6 else al) - 0x60
    else if adjustsLow al f then al - 6 else al) := rfl
  have hval : (dasAlu al f).result = al - adjustment al f := by
    rw [hres, adjustment]
    cases adjustsLow al f <;> cases adjustsHigh al f <;> simp [BitVec.sub_sub]
  exact congrArg (AluOut.mk · _) hval

/-- The packed-BCD byte of a number below 100. -/
def packedBcd (n : Nat) : Byte := BitVec.ofNat 8 (16 * (n / 10) + n % 10)

theorem packedBcd_toNat {n : Nat} (h : n < 100) : (packedBcd n).toNat = 16 * (n / 10) + n % 10 := by
  simp only [packedBcd, BitVec.toNat_ofNat]
  omega

section BcdSum

variable {x y : Nat} (hx : x < 100) (hy : y < 100) (c : Bool) (f : Flags)

include hx hy

/-- The low digit is adjusted when the low digits of the numbers carry. -/
theorem adjustsLow_bcdSum :
    (let sum := addAlu (packedBcd x) (packedBcd y) c f
     adjustsLow sum.result sum.flags) = decide (10 ≤ x % 10 + y % 10 + c.toNat) := by
  have hc := c.toNat_le
  simp only [adjustsLow]
  rw [Bool.eq_iff_iff, Bool.or_eq_true, addAlu_af, addAlu_toNat, packedBcd_toNat hx, packedBcd_toNat hy,
    decide_eq_true_iff, decide_eq_true_iff]
  omega

/-- The high digit is adjusted when the numbers carry. -/
theorem adjustsHigh_bcdSum :
    (let sum := addAlu (packedBcd x) (packedBcd y) c f
     adjustsHigh sum.result sum.flags) = decide (100 ≤ x + y + c.toNat) := by
  have hc := c.toNat_le
  simp only [adjustsHigh]
  rw [Bool.eq_iff_iff, Bool.or_eq_true, addAlu_cf, addAlu_toNat, packedBcd_toNat hx, packedBcd_toNat hy,
    decide_eq_true_iff, decide_eq_true_iff]
  generalize hsum : 16 * (x / 10) + x % 10 + (16 * (y / 10) + y % 10) + c.toNat = n
  have hwrap : n / 256 = 0 ∨ n / 256 = 1 := by omega
  rcases hwrap with hwrap | hwrap <;> omega

/-- The sum of the bytes, adjusted at the digits that carry, is that of the numbers. -/
theorem daaAlu_bcdSum_result :
    (let sum := addAlu (packedBcd x) (packedBcd y) c f
     (daaAlu sum.result sum.flags).result) = packedBcd ((x + y + c.toNat) % 100) := by
  have hc := c.toNat_le
  apply BitVec.eq_of_toNat_eq
  simp only [daaAlu_eq, adjustment]
  rw [adjustsLow_bcdSum hx hy, adjustsHigh_bcdSum hx hy, packedBcd_toNat (Nat.mod_lt _ (by decide)), BitVec.toNat_add,
    BitVec.toNat_ofNat, addAlu_toNat, packedBcd_toNat hx, packedBcd_toNat hy]
  by_cases hlow : 10 ≤ x % 10 + y % 10 + c.toNat <;> by_cases hhigh : 100 ≤ x + y + c.toNat <;>
    simp only [hlow, hhigh, decide_true, decide_false, Bool.toNat_true, Bool.toNat_false] <;> omega

end BcdSum

/-- Settles O14: DAA adjusts exactly the digits that carry. -/
theorem decimalAddition : Obligations.DecimalAddition := by
  intro x y c f
  refine ⟨daaAlu_bcdSum_result x.isLt y.isLt c f, ?_⟩
  have hcf := adjustsHigh_bcdSum x.isLt y.isLt c f
  exact (Bool.eq_iff_iff.mp hcf).trans decide_eq_true_iff

end Sys2Proof.Machine
end

section
/-! PROOFS. The forms of the binary and unary ALU instructions (41_arithmetic.md R408 to R417; 42_logic_shift.md R500 to
R502): an instruction's end as its work leaves the machine, then what the work of each form does. -/

namespace Sys2Proof.Machine

open Sys2Proof.Claims

/-! ### The end of an instruction -/

/-- `exec i s` is a whole instruction whose work leaves the state `t0`. -/
def Finishes (i : Instr) (s t0 : State) : Prop :=
  ∃ t, exec i s = .next t ∧ Ready t ∧ view t = (view t0).done ∧ t.biu = { t0.biu with lockOut := false }

/-- From what the body does to what the instruction does. -/
theorem finishes_of {i : Instr} {body : EU Unit} {s : State} {P : State → Prop} (hi : exec i s = complete body s)
    (hr : Ready s) (hb : ∀ s', Ready s' → view s' = view s → Runs body s' fun _ t => P t) :
    ∃ t0, P t0 ∧ Finishes i s t0 := by
  obtain ⟨t0, t, he, hp, hready, hview, hbiu⟩ := complete_runs hr fun s' h1 h2 _ => hb s' h1 h2
  exact ⟨t0, hp, t, hi.trans he, hready, hview, hbiu⟩

theorem Finishes.completes {i : Instr} {s t0 : State} {v : View} {addrs : List Nat} (h : Finishes i s t0)
    (hv : view t0 = v) (hk : ∀ a, a ∉ addrs → memRead v.mem a = memRead s.mem a) : Completes i s v.done addrs := by
  obtain ⟨t, he, hready, hview, hbiu⟩ := h
  subst hv
  exact ⟨t, he, hready, by rw [hbiu], hview, bytesKept_of_view hview hk⟩

/-- Work from `s` has ended in `t0` with the entry of vector `n`, the return offset `ret` being saved (R820). -/
def EndsInEntry (s : State) (n : Byte) (ret : Word) (t0 : State) : Prop :=
  ∃ sel off, ((view s).enterFrame ret).Vector n sel off ∧ view t0 = ((view s).enterFrame ret).jumpFar sel off ∧
    Flushed t0.biu

theorem Finishes.enters {i : Instr} {s t0 : State} {n : Byte} {ret : Word} (h : Finishes i s t0)
    (he : EndsInEntry s n ret t0) : Enters i s n ret := by
  obtain ⟨t, hexec, hready, hview, hbiu⟩ := h
  obtain ⟨sel, off, hvector, hv, hflushed⟩ := he
  refine ⟨sel, off, hvector, t, hexec, hready, by rw [hbiu], hv ▸ hview, bytesKept_of_view hview ?_,
    by rw [hbiu]; exact hflushed⟩
  intro a ha
  show memRead (view t0).mem a = _
  rw [hv, jumpFar_kept]
  exact enterFrame_kept ha

/-! ### Operands -/

/-- Work that begins with the value of an r/m operand and the register file: both are those before the instruction. -/
theorem Runs.operand8 {β : Type} {e : Rm Reg8} {k : Place Reg8 → Byte → Cpu → EU β} {s s' : State}
    {Q : β → State → Prop} (hr : Ready s') (hv : view s' = view s)
    (hk : ∀ b t, Ready t → view t = view s → (view s).Value8 (place s e) b → Runs (k (place s e) b s.cpu) t Q) :
    Runs (Machine.resolve e >>= fun p => Machine.readPlace8 p >>= fun b => Machine.readS State.cpu >>= k p b) s' Q := by
  refine Runs.readS_bind ?_
  rw [place_congr hv]
  refine (Runs.readPlace8 hr).bind fun b t ht hb => Runs.readS_bind ?_
  have hvt := hb.2.trans hv
  rw [view_cpu_eq hvt]
  exact hk b t ht hvt (hv ▸ hb.1)

theorem Runs.operand16 {β : Type} {e : Rm Reg16} {k : Place Reg16 → Word → Cpu → EU β} {s s' : State}
    {Q : β → State → Prop} (hr : Ready s') (hv : view s' = view s)
    (hk : ∀ w t, Ready t → view t = view s → (view s).Value16 (place s e) w → Runs (k (place s e) w s.cpu) t Q) :
    Runs (Machine.resolve e >>= fun p => Machine.readPlace16 p >>= fun w => Machine.readS State.cpu >>= k p w)
      s' Q := by
  refine Runs.readS_bind ?_
  rw [place_congr hv]
  refine (Runs.readPlace16 hr).bind fun w t ht hw => Runs.readS_bind ?_
  have hvt := hw.2.trans hv
  rw [view_cpu_eq hvt]
  exact hk w t ht hvt (hv ▸ hw.1)

/-- Work that goes on after a change of the flags. -/
theorem Runs.setFlags_bind {β : Type} {f : Flags → Flags} {g : Unit → EU β} {s : State} {v : View}
    {Q : β → State → Prop} (hr : Ready s) (hv : view s = v)
    (hk : ∀ t, Ready t → view t = v.setFlags f → Runs (g ()) t Q) : Runs (Machine.modifyFlags f >>= g) s Q :=
  Runs.modifyFlags_bind (hk _ hr (hv ▸ rfl))

/-- Work that goes on after a change of the register file. -/
theorem Runs.setCpu_bind {β : Type} {f : Cpu → Cpu} {g : Unit → EU β} {s : State} {v : View}
    {Q : β → State → Prop} (hr : Ready s) (hv : view s = v)
    (hk : ∀ t, Ready t → view t = v.setCpu f → Runs (g ()) t Q) : Runs (Machine.modifyCpu f >>= g) s Q :=
  Runs.modifyCpu_bind (hk _ hr (hv ▸ rfl))

/-! ### The binary ALU instructions -/

/-- The work of a byte form once its operands are known. -/
def aluWork8 (op : AluOp) (dst : Place Reg8) (src : Src8) : EU Unit := do
  let a ← readPlace8 dst
  let b ← readSrc8 src
  let r ← aluCompute op a b
  aluStore8 op dst r

/-- The work of a word form once its operands are known. -/
def aluWork16 (op : AluOp) (dst : Place Reg16) (src : Src16) : EU Unit := do
  let a ← readPlace16 dst
  let b ← readSrc16 src
  let r ← aluCompute op a b
  aluStore16 op dst r

/-- Every byte form does that work; the immediate forms and their aliases too (R408, U2). -/
theorem exec_aluByte {s : State} {i : Instr} {op : AluOp} {dst : Place Reg8} {src : Src8}
    (h : aluByte s i = some (op, dst, src)) (ha : admitted s.params i) :
    exec i s = complete (aluWork8 op dst src) s := by
  cases i with
  | addEbGb | addGbEb | addAlIb | addEbIb | orEbGb | orGbEb | orAlIb | orEbIb
  | adcEbGb | adcGbEb | adcAlIb | adcEbIb | sbbEbGb | sbbGbEb | sbbAlIb | sbbEbIb
  | andEbGb | andGbEb | andAlIb | andEbIb | subEbGb | subGbEb | subAlIb | subEbIb
  | xorEbGb | xorGbEb | xorAlIb | xorEbIb | cmpEbGb | cmpGbEb | cmpAlIb | cmpEbIb =>
    cases h
    exact complete_congr fun _ => rfl
  | addEbIbAlias | orEbIbAlias | adcEbIbAlias | sbbEbIbAlias | andEbIbAlias | subEbIbAlias | xorEbIbAlias
  | cmpEbIbAlias =>
    cases h
    exact (ifAdmitted_of_admitted ha rfl).trans (complete_congr fun _ => rfl)
  | _ => cases h

/-- Every word form; the byte immediate of opcode 83 is sign-extended (R408, R230, U3). -/
theorem exec_aluWord {s : State} {i : Instr} {op : AluOp} {dst : Place Reg16} {src : Src16}
    (h : aluWord s i = some (op, dst, src)) (ha : admitted s.params i) :
    exec i s = complete (aluWork16 op dst src) s := by
  cases i with
  | addEwGw | addGwEw | addAxIw | addEwIw | addEwIbs | orEwGw | orGwEw | orAxIw | orEwIw
  | adcEwGw | adcGwEw | adcAxIw | adcEwIw | adcEwIbs | sbbEwGw | sbbGwEw | sbbAxIw | sbbEwIw | sbbEwIbs
  | andEwGw | andGwEw | andAxIw | andEwIw | subEwGw | subGwEw | subAxIw | subEwIw | subEwIbs
  | xorEwGw | xorGwEw | xorAxIw | xorEwIw | cmpEwGw | cmpGwEw | cmpAxIw | cmpEwIw | cmpEwIbs =>
    cases h
    exact complete_congr fun _ => rfl
  | orEwIbs | andEwIbs | xorEwIbs =>
    cases h
    exact (ifAdmitted_of_admitted ha rfl).trans (complete_congr fun _ => rfl)
  | _ => cases h

/-- The view after the result of an operation is stored: CMP stores none (R408). -/
def aluStored8 (op : AluOp) (v : View) (dst : Place Reg8) (r : Byte) : View :=
  if op = .cmp then v else v.write8 dst r

/-- The same of a word. -/
def aluStored16 (op : AluOp) (v : View) (dst : Place Reg16) (r : Word) : View :=
  if op = .cmp then v else v.write16 dst r

theorem Runs.aluStore8 {op : AluOp} {dst : Place Reg8} {r : Byte} {s : State} (hr : Ready s) :
    Runs (aluStore8 op dst r) s fun _ t => view t = aluStored8 op (view s) dst r := by
  cases op with
  | cmp => exact Runs.pure hr rfl
  | add | or | adc | sbb | and | sub | xor => exact Runs.writePlace8 hr

theorem Runs.aluStore16 {op : AluOp} {dst : Place Reg16} {r : Word} {s : State} (hr : Ready s) :
    Runs (aluStore16 op dst r) s fun _ t => view t = aluStored16 op (view s) dst r := by
  cases op with
  | cmp => exact Runs.pure hr rfl
  | add | or | adc | sbb | and | sub | xor => exact Runs.writePlace16 hr

theorem Runs.aluWork8 {op : AluOp} {dst : Place Reg8} {src : Src8} {s s' : State} (hr : Ready s')
    (hv : view s' = view s) : Runs (aluWork8 op dst src) s' fun _ t => ∃ a b af,
      (view s).Value8 dst a ∧ src.Is (view s) b ∧
      view t = aluStored8 op ((view s).setFlags fun _ => (aluResult op a b af s.cpu.flags).flags) dst
        (aluResult op a b af s.cpu.flags).result := by
  refine (Runs.readPlace8 hr).bind ?_
  rintro a t1 r1 ⟨ha, h1⟩
  refine (Runs.readSrc8 r1).bind ?_
  rintro b t2 r2 ⟨hb, h2⟩
  refine (Runs.aluCompute r2).bind ?_
  rintro _ t3 r3 ⟨af, rfl, h3⟩
  refine (Runs.aluStore8 r3).imp ?_
  intro _ t4 h4
  rw [h1, hv] at hb h2
  rw [hv] at ha
  rw [h3, h2, view_cpu_eq h2] at h4
  exact ⟨a, b, af, ha, hb, h4⟩

theorem Runs.aluWork16 {op : AluOp} {dst : Place Reg16} {src : Src16} {s s' : State} (hr : Ready s')
    (hv : view s' = view s) : Runs (aluWork16 op dst src) s' fun _ t => ∃ a b af,
      (view s).Value16 dst a ∧ src.Is (view s) b ∧
      view t = aluStored16 op ((view s).setFlags fun _ => (aluResult op a b af s.cpu.flags).flags) dst
        (aluResult op a b af s.cpu.flags).result := by
  refine (Runs.readPlace16 hr).bind ?_
  rintro a t1 r1 ⟨ha, h1⟩
  refine (Runs.readSrc16 r1).bind ?_
  rintro b t2 r2 ⟨hb, h2⟩
  refine (Runs.aluCompute r2).bind ?_
  rintro _ t3 r3 ⟨af, rfl, h3⟩
  refine (Runs.aluStore16 r3).imp ?_
  intro _ t4 h4
  rw [h1, hv] at hb h2
  rw [hv] at ha
  rw [h3, h2, view_cpu_eq h2] at h4
  exact ⟨a, b, af, ha, hb, h4⟩

/-- Settles O15: both operands are taken, then the flags are written, and but for CMP the result. -/
theorem aluByteForms : Obligations.AluByteForms := by
  intro s i op dst src h ha hr
  obtain ⟨t0, ⟨a, b, af, hdst, hsrc, hv⟩, hfin⟩ := finishes_of (exec_aluByte h ha) hr fun _ => Runs.aluWork8
  refine ⟨a, b, af, hdst, hsrc, fun hop => ?_, fun hop => ?_⟩
  · exact hfin.completes (hv.trans (if_pos hop)) fun _ _ => rfl
  · exact hfin.completes (hv.trans (if_neg hop)) fun _ => write8_kept

/-- Settles O16: as for bytes. -/
theorem aluWordForms : Obligations.AluWordForms := by
  intro s i op dst src h ha hr
  obtain ⟨t0, ⟨a, b, af, hdst, hsrc, hv⟩, hfin⟩ := finishes_of (exec_aluWord h ha) hr fun _ => Runs.aluWork16
  refine ⟨a, b, af, hdst, hsrc, fun hop => ?_, fun hop => ?_⟩
  · exact hfin.completes (hv.trans (if_pos hop)) fun _ _ => rfl
  · exact hfin.completes (hv.trans (if_neg hop)) fun _ => write16_kept

/-! ### INC, DEC and NEG -/

/-- Every byte form is a read-modify-write of its operand (R415 to R417). -/
theorem exec_unaryByte {s : State} {i : Instr} {f : Byte → Flags → AluOut 8} {dst : Place Reg8}
    (h : unaryByte s i = some (f, dst)) : ∃ e, place s e = dst ∧ exec i s = complete (unary8 f e) s := by
  cases i with
  | incEb | decEb | negEb =>
    cases h
    exact ⟨_, rfl, rfl⟩
  | _ => cases h

/-- Every word form is one; the register in the opcode is an operand like any other. -/
theorem exec_unaryWord {s : State} {i : Instr} {f : Word → Flags → AluOut 16} {dst : Place Reg16}
    (h : unaryWord s i = some (f, dst)) : ∃ e, place s e = dst ∧ exec i s = complete (unary16 f e) s := by
  cases i with
  | incEw | decEw | negEw =>
    cases h
    exact ⟨_, rfl, rfl⟩
  | incR16 r | decR16 r =>
    cases h
    exact ⟨.reg r, rfl, rfl⟩
  | _ => cases h

theorem Runs.unary8 {f : Byte → Flags → AluOut 8} {e : Rm Reg8} {s s' : State} (hr : Ready s') (hv : view s' = view s) :
    Runs (unary8 f e) s' fun _ t => ∃ a, (view s).Value8 (place s e) a ∧
      view t = ((view s).setFlags fun _ => (f a s.cpu.flags).flags).write8 (place s e) (f a s.cpu.flags).result := by
  refine Runs.operand8 hr hv fun a t ht hvt ha => Runs.setFlags_bind ht hvt fun u hu hvu => ?_
  exact (Runs.writePlace8 hu).imp fun _ _ h => ⟨a, ha, hvu ▸ h⟩

theorem Runs.unary16 {f : Word → Flags → AluOut 16} {e : Rm Reg16} {s s' : State} (hr : Ready s')
    (hv : view s' = view s) :
    Runs (unary16 f e) s' fun _ t => ∃ a, (view s).Value16 (place s e) a ∧
      view t = ((view s).setFlags fun _ => (f a s.cpu.flags).flags).write16 (place s e) (f a s.cpu.flags).result := by
  refine Runs.operand16 hr hv fun a t ht hvt ha => Runs.setFlags_bind ht hvt fun u hu hvu => ?_
  exact (Runs.writePlace16 hu).imp fun _ _ h => ⟨a, ha, hvu ▸ h⟩

/-- Settles O17: the operand is taken, and then the flags and the operand are written. -/
theorem unaryForms : Obligations.UnaryForms := by
  constructor
  · intro s i f dst h hr
    obtain ⟨e, rfl, hi⟩ := exec_unaryByte h
    obtain ⟨t0, ⟨a, ha, hv⟩, hfin⟩ := finishes_of hi hr fun _ => Runs.unary8
    exact ⟨a, ha, hfin.completes hv fun _ => write8_kept⟩
  · intro s i f dst h hr
    obtain ⟨e, rfl, hi⟩ := exec_unaryWord h
    obtain ⟨t0, ⟨a, ha, hv⟩, hfin⟩ := finishes_of hi hr fun _ => Runs.unary16
    exact ⟨a, ha, hfin.completes hv fun _ => write16_kept⟩

end Sys2Proof.Machine
end

section
/-! PROOFS. Multiplication and division (41_arithmetic.md R418 to R421): products and quotients as numbers, and the
instructions that store them or enter vector 0. -/

namespace Sys2Proof.Machine

open Sys2Proof.Claims

/-! ### Bytes, words and double words as numbers -/

theorem loByte_toNat (v : Word) : (loByte v).toNat = v.toNat % 256 := BitVec.toNat_setWidth _ _

theorem hiByte_toNat (v : Word) : (hiByte v).toNat = v.toNat / 256 := by
  have h := v.isLt
  simp only [hiByte, BitVec.toNat_setWidth, BitVec.toNat_ushiftRight, Nat.shiftRight_eq_div_pow]
  omega

theorem joinBytes_toNat (hi lo : Byte) : (joinBytes hi lo).toNat = 256 * hi.toNat + lo.toNat := by
  have h := congrArg BitVec.toNat (hiByte_joinBytes hi lo)
  have h' := congrArg BitVec.toNat (loByte_joinBytes hi lo)
  rw [hiByte_toNat] at h
  rw [loByte_toNat] at h'
  omega

theorem hiWord_toNat (v : BitVec 32) : (hiWord v).toNat = v.toNat / 65536 := by
  have h := v.isLt
  simp only [hiWord, BitVec.toNat_setWidth, BitVec.toNat_ushiftRight, Nat.shiftRight_eq_div_pow]
  omega

theorem dxAx_toNat (c : Cpu) : (dxAx c).toNat = 65536 * c.dx.toNat + c.ax.toNat := by
  rw [dxAx, BitVec.toNat_append, ← Nat.shiftLeft_add_eq_or_of_lt c.ax.isLt, Nat.shiftLeft_eq]
  omega

theorem dxAx_toInt (c : Cpu) : (dxAx c).toInt = 65536 * c.dx.toInt + c.ax.toNat := by
  have hax := c.ax.isLt
  rw [BitVec.toInt_eq_toNat_cond, BitVec.toInt_eq_toNat_cond, dxAx_toNat]
  split_ifs <;> omega

theorem toNat_ne_zero_iff {w : Nat} (d : BitVec w) : d.toNat ≠ 0 ↔ d ≠ 0 := by
  rw [ne_eq, ne_eq, ← BitVec.toNat_inj]
  rfl

theorem toInt_ne_zero_iff {w : Nat} (d : BitVec w) : d.toInt ≠ 0 ↔ d ≠ 0 := by
  rw [ne_eq, ne_eq, ← BitVec.toInt_inj, BitVec.ofNat_eq_ofNat, BitVec.toInt_zero]

/-- A signed word keeps its value when it is cut to a shorter one and sign-extended exactly when it fits there. -/
theorem signExtend_setWidth_eq_iff {m n : Nat} (hm : 0 < m) (hmn : m ≤ n) (v : BitVec n) :
    (v.setWidth m).signExtend n = v ↔ -(2 ^ (m - 1)) ≤ v.toInt ∧ v.toInt < 2 ^ (m - 1) := by
  have hcut : v.setWidth m = BitVec.ofInt m v.toInt := by
    apply BitVec.eq_of_toInt_eq
    rw [BitVec.toInt_setWidth, BitVec.toInt_ofInt, BitVec.toInt_eq_toNat_bmod,
      Int.bmod_bmod_of_dvd (pow_dvd_pow 2 hmn)]
  rw [← BitVec.toInt_inj, BitVec.toInt_signExtend_of_le hmn]
  constructor
  · intro h
    rw [← h]
    exact ⟨BitVec.le_toInt _, BitVec.toInt_lt⟩
  · rintro ⟨hlo, hhi⟩
    rw [hcut, BitVec.toInt_ofInt_eq_self hm hlo hhi]

/-! ### Products -/

/-- The product of two words, made at a greater width. -/
theorem setWidth_mul_setWidth {n : Nat} (m : Nat) (a b : BitVec n) :
    a.setWidth m * b.setWidth m = BitVec.ofNat m (a.toNat * b.toNat) := by
  rw [BitVec.ofNat_mul, BitVec.ofNat_toNat, BitVec.ofNat_toNat]

/-- A natural number put into DX:AX. -/
theorem setDxAx_ofNat (p : Nat) : setDxAx (BitVec.ofNat 32 p) =
    fun c => { c with ax := BitVec.ofNat 16 p, dx := BitVec.ofNat 16 (p / 65536) } := by
  have hlo : loWord (BitVec.ofNat 32 p) = BitVec.ofNat 16 p := BitVec.setWidth_ofNat_of_le (by decide) p
  have hhi : hiWord (BitVec.ofNat 32 p) = BitVec.ofNat 16 (p / 65536) := by
    apply BitVec.eq_of_toNat_eq
    rw [hiWord_toNat, BitVec.toNat_ofNat, BitVec.toNat_ofNat]
    omega
  funext c
  rw [setDxAx, hlo, hhi]

/-- An integer put into DX:AX. -/
theorem setDxAx_ofInt (p : Int) : setDxAx (BitVec.ofInt 32 p) =
    fun c => { c with ax := BitVec.ofInt 16 p, dx := BitVec.ofInt 16 (p / 65536) } := by
  have hlo : loWord (BitVec.ofInt 32 p) = BitVec.ofInt 16 p := by
    apply BitVec.eq_of_toNat_eq
    rw [loWord, BitVec.toNat_setWidth, BitVec.toNat_ofInt, BitVec.toNat_ofInt]
    omega
  have hhi : hiWord (BitVec.ofInt 32 p) = BitVec.ofInt 16 (p / 65536) := by
    apply BitVec.eq_of_toNat_eq
    rw [hiWord_toNat, BitVec.toNat_ofInt, BitVec.toNat_ofInt]
    omega
  funext c
  rw [setDxAx, hlo, hhi]

/-- The high half of a byte product is not 0 exactly when the product needs it (R418). -/
theorem mulByte_big (a b : Byte) : (hiByte (mulByte a b) != 0) = decide (256 ≤ a.toNat * b.toNat) := by
  have hlt : a.toNat * b.toNat < 256 * 256 := Nat.mul_lt_mul'' a.isLt b.isLt
  rw [Bool.eq_iff_iff, bne_iff_ne, decide_eq_true_iff, ← toNat_ne_zero_iff, hiByte_toNat, mulByte, zext16, zext16,
    setWidth_mul_setWidth, BitVec.toNat_ofNat]
  omega

theorem mulWord_big (a b : Word) : (hiWord (mulWord a b) != 0) = decide (65536 ≤ a.toNat * b.toNat) := by
  have hlt : a.toNat * b.toNat < 65536 * 65536 := Nat.mul_lt_mul'' a.isLt b.isLt
  rw [Bool.eq_iff_iff, bne_iff_ne, decide_eq_true_iff, ← toNat_ne_zero_iff, hiWord_toNat, mulWord,
    setWidth_mul_setWidth, BitVec.toNat_ofNat]
  omega

/-- A signed byte product is not its own low half sign-extended exactly when it is out of the range of a byte (R419). -/
theorem imulByte_big (a b : Byte) : (imulByte a b != sext16 (loByte (imulByte a b))) =
    decide (a.toInt * b.toInt < -128 ∨ 127 < a.toInt * b.toInt) := by
  have hlo := BitVec.le_toInt_mul_toInt (x := a) (y := b)
  have hhi := BitVec.toInt_mul_toInt_le (x := a) (y := b)
  have hval : (imulByte a b).toInt = a.toInt * b.toInt := BitVec.toInt_ofInt_eq_self (by decide) (by omega) (by omega)
  rw [Bool.eq_iff_iff, bne_iff_ne, decide_eq_true_iff, ne_comm, ne_eq, sext16, loByte,
    signExtend_setWidth_eq_iff (by decide) (by decide), hval]
  omega

theorem imulWord_big (a b : Word) : (imulWord a b != (loWord (imulWord a b)).signExtend 32) =
    decide (a.toInt * b.toInt < -32768 ∨ 32767 < a.toInt * b.toInt) := by
  have hlo := BitVec.le_toInt_mul_toInt (x := a) (y := b)
  have hhi := BitVec.toInt_mul_toInt_le (x := a) (y := b)
  have hval : (imulWord a b).toInt = a.toInt * b.toInt := BitVec.toInt_ofInt_eq_self (by decide) (by omega) (by omega)
  rw [Bool.eq_iff_iff, bne_iff_ne, decide_eq_true_iff, ne_comm, ne_eq, loWord,
    signExtend_setWidth_eq_iff (by decide) (by decide), hval]
  omega

/-! ### MUL and IMUL -/

/-- Work that goes on after a draw. -/
theorem Runs.drawBit_bind {β : Type} {g : Bool → EU β} {s : State} {v : View} {Q : β → State → Prop} (hr : Ready s)
    (hv : view s = v) (hk : ∀ b t, Ready t → view t = v → Runs (g b) t Q) : Runs (Machine.drawBit >>= g) s Q :=
  (Runs.drawBit hr).bind fun b t ht h => hk b t ht (h.trans hv)

theorem Runs.mulFlags {big : Bool} {s : State} {v : View} (hr : Ready s) (hv : view s = v) :
    Runs (mulFlags big) s fun _ t => ∃ sf zf af pf, view t = v.setFlags (setStatus big sf zf af pf big) := by
  refine Runs.drawBit_bind hr hv fun sf _ hr hv => Runs.drawBit_bind hr hv fun zf _ hr hv =>
    Runs.drawBit_bind hr hv fun af _ hr hv => Runs.drawBit_bind hr hv fun pf _ hr hv => ?_
  exact Runs.modifyFlags hr ⟨sf, zf, af, pf, hv ▸ rfl⟩

/-- A multiplication by a byte operand: `f` stores the product, and `big` says whether it needs its high half. -/
def multiply8 (f : Cpu → Byte → Cpu → Cpu) (big : Cpu → Byte → Bool) (e : Rm Reg8) : EU Unit := do
  let p ← resolve e
  let b ← readPlace8 p
  let c ← readS State.cpu
  modifyCpu (f c b)
  mulFlags (big c b)

/-- The same of a word operand. -/
def multiply16 (f : Cpu → Word → Cpu → Cpu) (big : Cpu → Word → Bool) (e : Rm Reg16) : EU Unit := do
  let p ← resolve e
  let w ← readPlace16 p
  let c ← readS State.cpu
  modifyCpu (f c w)
  mulFlags (big c w)

theorem Runs.multiply8 {f : Cpu → Byte → Cpu → Cpu} {big : Cpu → Byte → Bool} {e : Rm Reg8} {s s' : State}
    (hr : Ready s') (hv : view s' = view s) :
    Runs (multiply8 f big e) s' fun _ t => ∃ b, (view s).Value8 (place s e) b ∧
      ∃ sf zf af pf, view t = ((view s).setCpu (f s.cpu b)).setFlags
        (setStatus (big s.cpu b) sf zf af pf (big s.cpu b)) :=
  Runs.operand8 hr hv fun b _ ht hvt hb => (Runs.setCpu_bind ht hvt fun _ => Runs.mulFlags).imp fun _ _ h => ⟨b, hb, h⟩

theorem Runs.multiply16 {f : Cpu → Word → Cpu → Cpu} {big : Cpu → Word → Bool} {e : Rm Reg16} {s s' : State}
    (hr : Ready s') (hv : view s' = view s) :
    Runs (multiply16 f big e) s' fun _ t => ∃ w, (view s).Value16 (place s e) w ∧
      ∃ sf zf af pf, view t = ((view s).setCpu (f s.cpu w)).setFlags
        (setStatus (big s.cpu w) sf zf af pf (big s.cpu w)) :=
  Runs.operand16 hr hv fun w _ ht hvt hw => (Runs.setCpu_bind ht hvt fun _ => Runs.mulFlags).imp fun _ _ h => ⟨w, hw, h⟩

theorem completes_multiply8 {i : Instr} {s : State} {e : Rm Reg8} (f : Cpu → Byte → Cpu → Cpu) (big : Cpu → Byte → Bool)
    (hi : exec i s = complete (multiply8 f big e) s) (hr : Ready s) : ∃ b sf zf af pf, (view s).Value8 (place s e) b ∧
      Completes i s (((view s).setCpu (f s.cpu b)).setFlags
        (setStatus (big s.cpu b) sf zf af pf (big s.cpu b))).done [] := by
  obtain ⟨t0, ⟨b, hb, sf, zf, af, pf, hv⟩, hfin⟩ := finishes_of hi hr fun _ => Runs.multiply8
  exact ⟨b, sf, zf, af, pf, hb, hfin.completes hv fun _ _ => rfl⟩

theorem completes_multiply16 {i : Instr} {s : State} {e : Rm Reg16} (f : Cpu → Word → Cpu → Cpu)
    (big : Cpu → Word → Bool) (hi : exec i s = complete (multiply16 f big e) s) (hr : Ready s) :
    ∃ w sf zf af pf, (view s).Value16 (place s e) w ∧
      Completes i s (((view s).setCpu (f s.cpu w)).setFlags
        (setStatus (big s.cpu w) sf zf af pf (big s.cpu w))).done [] := by
  obtain ⟨t0, ⟨w, hw, sf, zf, af, pf, hv⟩, hfin⟩ := finishes_of hi hr fun _ => Runs.multiply16
  exact ⟨w, sf, zf, af, pf, hw, hfin.completes hv fun _ _ => rfl⟩

/-- Settles O22: the product is made at double width, and its high half says whether it fits the low one. -/
theorem multiplication : Obligations.Multiplication := by
  refine ⟨fun s e hr => ?_, fun s e hr => ?_, fun s e hr => ?_, fun s e hr => ?_⟩
  · have h := completes_multiply8 (i := .mulEb e) (fun c b c' => { c' with ax := mulByte (loByte c.ax) b })
      (fun c b => hiByte (mulByte (loByte c.ax) b) != 0) rfl hr
    simp only [mulByte_big] at h
    simp only [mulByte, zext16, setWidth_mul_setWidth] at h
    exact h
  · have h := completes_multiply16 (i := .mulEw e) (fun c w => setDxAx (mulWord c.ax w))
      (fun c w => hiWord (mulWord c.ax w) != 0) rfl hr
    simp only [mulWord_big] at h
    simp only [mulWord, setWidth_mul_setWidth, setDxAx_ofNat] at h
    exact h
  · have h := completes_multiply8 (i := .imulEb e) (fun c b c' => { c' with ax := imulByte (loByte c.ax) b })
      (fun c b => imulByte (loByte c.ax) b != sext16 (loByte (imulByte (loByte c.ax) b))) rfl hr
    simp only [imulByte_big] at h
    exact h
  · have h := completes_multiply16 (i := .imulEw e) (fun c w => setDxAx (imulWord c.ax w))
      (fun c w => imulWord c.ax w != (loWord (imulWord c.ax w)).signExtend 32) rfl hr
    simp only [imulWord_big] at h
    simp only [imulWord, setDxAx_ofInt] at h
    exact h

/-! ### Quotients and remainders -/

/-- A result behind two guards is given exactly when neither holds. -/
theorem guarded_eq {α : Type} {p q r : Prop} [Decidable p] [Decidable q] (h : r ↔ ¬p ∧ ¬q) (x : Option α) :
    (r → (if p then none else if q then none else x) = x) ∧
      (¬r → (if p then none else if q then none else x) = none) := by
  constructor
  · intro hr
    obtain ⟨hp, hq⟩ := h.mp hr
    rw [if_neg hp, if_neg hq]
  · intro hr
    split_ifs with hp hq
    · rfl
    · rfl
    · exact absurd (h.mpr ⟨hp, hq⟩) hr

theorem divByte_eq (n : Word) (d : Byte) :
    (fits n.toNat d.toNat 0xFF →
      divByte n d = some (BitVec.ofNat 8 (n.toNat / d.toNat), BitVec.ofNat 8 (n.toNat % d.toNat))) ∧
    (¬fits n.toNat d.toNat 0xFF → divByte n d = none) :=
  guarded_eq (and_congr (toNat_ne_zero_iff d) Nat.not_lt.symm) _

theorem divWord_eq (n : BitVec 32) (d : Word) :
    (fits n.toNat d.toNat 0xFFFF →
      divWord n d = some (BitVec.ofNat 16 (n.toNat / d.toNat), BitVec.ofNat 16 (n.toNat % d.toNat))) ∧
    (¬fits n.toNat d.toNat 0xFFFF → divWord n d = none) :=
  guarded_eq (and_congr (toNat_ne_zero_iff d) Nat.not_lt.symm) _

theorem idivByte_eq (n : Word) (d : Byte) :
    (signedFits n.toInt d.toInt 127 →
      idivByte n d = some (BitVec.ofInt 8 (n.toInt.tdiv d.toInt), BitVec.ofInt 8 (n.toInt.tmod d.toInt))) ∧
    (¬signedFits n.toInt d.toInt 127 → idivByte n d = none) :=
  guarded_eq (and_congr (toInt_ne_zero_iff d) (by omega)) _

theorem idivWord_eq (n : BitVec 32) (d : Word) :
    (signedFits n.toInt d.toInt 32767 →
      idivWord n d = some (BitVec.ofInt 16 (n.toInt.tdiv d.toInt), BitVec.ofInt 16 (n.toInt.tmod d.toInt))) ∧
    (¬signedFits n.toInt d.toInt 32767 → idivWord n d = none) :=
  guarded_eq (and_congr (toInt_ne_zero_iff d) (by omega)) _

/-- Remainder and quotient of bytes, as one word. -/
theorem joinBytes_ofNat {hi lo : Nat} (hlo : lo < 256) :
    joinBytes (BitVec.ofNat 8 hi) (BitVec.ofNat 8 lo) = BitVec.ofNat 16 (256 * hi + lo) := by
  apply BitVec.eq_of_toNat_eq
  simp only [joinBytes_toNat, BitVec.toNat_ofNat]
  omega

/-! ### DIV and IDIV -/

theorem Runs.drawStatusFlags {s : State} {v : View} (hr : Ready s) (hv : view s = v) :
    Runs drawStatusFlags s fun _ t => ∃ ovf sf zf af pf cf, view t = v.setFlags (setStatus ovf sf zf af pf cf) := by
  refine Runs.drawBit_bind hr hv fun ovf _ hr hv => Runs.drawBit_bind hr hv fun sf _ hr hv =>
    Runs.drawBit_bind hr hv fun zf _ hr hv => Runs.drawBit_bind hr hv fun af _ hr hv =>
    Runs.drawBit_bind hr hv fun pf _ hr hv => Runs.drawBit_bind hr hv fun cf _ hr hv => ?_
  exact Runs.modifyFlags hr ⟨ovf, sf, zf, af, pf, cf, hv ▸ rfl⟩

/-- What a division leaves: its quotient and remainder stored by `store` and some value in each status flag, or, when
it gives none, the entry of vector 0 with the offset after the instruction saved (R420, R806). -/
def DivisionLeaves {α : Type} (s : State) (store : α → Cpu → Cpu) (t : State) : Option α → Prop
  | some x => ∃ ovf sf zf af pf cf, view t = ((view s).setCpu (store x)).setFlags (setStatus ovf sf zf af pf cf)
  | none => EndsInEntry s 0 s.cpu.ip t

theorem Runs.divideError {s s' : State} (hr : Ready s') (hv : view s' = view s) :
    Runs divideError s' fun _ t => EndsInEntry s 0 s.cpu.ip t := by
  unfold EndsInEntry
  rw [← hv, ← view_cpu_eq hv]
  exact Runs.enterAtIp hr

/-- What a division instruction does with quotient and remainder, or without. -/
def DivisionEnds {α : Type} (i : Instr) (s : State) (store : α → Cpu → Cpu) : Option α → Prop
  | some x => ∃ ovf sf zf af pf cf,
      Completes i s (((view s).setCpu (store x)).setFlags (setStatus ovf sf zf af pf cf)).done []
  | none => Enters i s 0 s.cpu.ip

theorem Finishes.division {α : Type} {i : Instr} {s t0 : State} {store : α → Cpu → Cpu} {r : Option α}
    (h : Finishes i s t0) (hd : DivisionLeaves s store t0 r) : DivisionEnds i s store r := by
  cases r with
  | none => exact h.enters hd
  | some x =>
    obtain ⟨ovf, sf, zf, af, pf, cf, hv⟩ := hd
    exact ⟨ovf, sf, zf, af, pf, cf, h.completes hv fun _ _ => rfl⟩

/-- Quotient and remainder may be written as the register file before the instruction gives them. -/
theorem DivisionEnds.stores {α : Type} {i : Instr} {s : State} {store : α → Cpu → Cpu} {x : α} {f : Cpu → Cpu}
    (h : DivisionEnds i s store (some x)) (hf : store x s.cpu = f s.cpu) : ∃ ovf sf zf af pf cf,
      Completes i s (((view s).setCpu f).setFlags (setStatus ovf sf zf af pf cf)).done [] := by
  have hv : (view s).setCpu (store x) = (view s).setCpu f := congrArg (fun c => { view s with cpu := c }) hf
  rw [← hv]
  exact h

theorem Runs.divideByte {f : Word → Byte → Option (Byte × Byte)} {e : Rm Reg8} {s s' : State} (hr : Ready s')
    (hv : view s' = view s) : Runs (divideByte f e) s' fun _ t => ∃ b, (view s).Value8 (place s e) b ∧
      DivisionLeaves s (fun x c => { c with ax := joinBytes x.2 x.1 }) t (f s.cpu.ax b) := by
  refine Runs.operand8 hr hv fun b t ht hvt hb => ?_
  cases hf : f s.cpu.ax b with
  | none => exact (Runs.divideError ht hvt).imp fun _ u h => ⟨b, hb, hf ▸ h⟩
  | some x =>
    exact Runs.setCpu_bind ht hvt fun u hu hvu => (Runs.drawStatusFlags hu hvu).imp fun _ _ h => ⟨b, hb, hf ▸ h⟩

theorem Runs.divideWord {f : BitVec 32 → Word → Option (Word × Word)} {e : Rm Reg16} {s s' : State} (hr : Ready s')
    (hv : view s' = view s) : Runs (divideWord f e) s' fun _ t => ∃ w, (view s).Value16 (place s e) w ∧
      DivisionLeaves s (fun x c => { c with ax := x.1, dx := x.2 }) t (f (dxAx s.cpu) w) := by
  refine Runs.operand16 hr hv fun w t ht hvt hw => ?_
  cases hf : f (dxAx s.cpu) w with
  | none => exact (Runs.divideError ht hvt).imp fun _ u h => ⟨w, hw, hf ▸ h⟩
  | some x =>
    exact Runs.setCpu_bind ht hvt fun u hu hvu => (Runs.drawStatusFlags hu hvu).imp fun _ _ h => ⟨w, hw, hf ▸ h⟩

theorem divideByte_ends {i : Instr} {s : State} {f : Word → Byte → Option (Byte × Byte)} {e : Rm Reg8}
    (hi : exec i s = complete (divideByte f e) s) (hr : Ready s) : ∃ b, (view s).Value8 (place s e) b ∧
      DivisionEnds i s (fun x c => { c with ax := joinBytes x.2 x.1 }) (f s.cpu.ax b) := by
  obtain ⟨t0, ⟨b, hb, hd⟩, hfin⟩ := finishes_of hi hr fun _ => Runs.divideByte
  exact ⟨b, hb, hfin.division hd⟩

theorem divideWord_ends {i : Instr} {s : State} {f : BitVec 32 → Word → Option (Word × Word)} {e : Rm Reg16}
    (hi : exec i s = complete (divideWord f e) s) (hr : Ready s) : ∃ w, (view s).Value16 (place s e) w ∧
      DivisionEnds i s (fun x c => { c with ax := x.1, dx := x.2 }) (f (dxAx s.cpu) w) := by
  obtain ⟨t0, ⟨w, hw, hd⟩, hfin⟩ := finishes_of hi hr fun _ => Runs.divideWord
  exact ⟨w, hw, hfin.division hd⟩

/-- Settles O23: the guards of the division are those of `fits`. -/
theorem unsignedDivision : Obligations.UnsignedDivision := by
  constructor
  · intro s e hr
    obtain ⟨b, hb, hend⟩ := divideByte_ends (i := .divEb e) rfl hr
    refine ⟨b, hb, fun hfits => ?_, fun hno => ?_⟩
    · rw [(divByte_eq _ _).1 hfits] at hend
      have hjoin := joinBytes_ofNat (hi := s.cpu.ax.toNat % b.toNat) (Nat.lt_succ_of_le hfits.2)
      exact hend.stores (congrArg (fun ax => { s.cpu with ax := ax }) hjoin)
    · rw [(divByte_eq _ _).2 hno] at hend
      exact hend
  · intro s e hr
    obtain ⟨w, hw, hend⟩ := divideWord_ends (i := .divEw e) rfl hr
    rw [← dxAx_toNat]
    refine ⟨w, hw, fun hfits => ?_, fun hno => ?_⟩
    · rw [(divWord_eq _ _).1 hfits] at hend
      exact hend.stores rfl
    · rw [(divWord_eq _ _).2 hno] at hend
      exact hend

/-- Settles O24: the guards of the division are those of `signedFits`. -/
theorem signedDivision : Obligations.SignedDivision := by
  constructor
  · intro s e hr
    obtain ⟨b, hb, hend⟩ := divideByte_ends (i := .idivEb e) rfl hr
    refine ⟨b, hb, fun hfits => ?_, fun hno => ?_⟩
    · rw [(idivByte_eq _ _).1 hfits] at hend
      exact hend.stores rfl
    · rw [(idivByte_eq _ _).2 hno] at hend
      exact hend
  · intro s e hr
    obtain ⟨w, hw, hend⟩ := divideWord_ends (i := .idivEw e) rfl hr
    rw [← dxAx_toInt]
    refine ⟨w, hw, fun hfits => ?_, fun hno => ?_⟩
    · rw [(idivWord_eq _ _).1 hfits] at hend
      exact hend.stores rfl
    · rw [(idivWord_eq _ _).2 hno] at hend
      exact hend

end Sys2Proof.Machine
end

section
/-! PROOFS. The adjustments of AL and the conversions (41_arithmetic.md R422 to R429): instructions that read and write
registers alone. -/

namespace Sys2Proof.Machine

open Sys2Proof.Claims

/-! ### DAA and DAS -/

theorem Runs.decimalAdjust {f : Byte → Flags → AluOut 8} {s s' : State} (hr : Ready s') (hv : view s' = view s) :
    Runs (decimalAdjust f) s' fun _ t => ∃ ovf, (let o := f (loByte s.cpu.ax) s.cpu.flags
      view t = ((view s).setCpu (setReg8 .al o.result)).setFlags
        fun _ => { szpFlags o.result o.flags with ovf := ovf }) := by
  refine Runs.readS_bind ?_
  rw [view_cpu_eq hv]
  refine Runs.drawBit_bind hr hv fun ovf t ht hvt => Runs.modifyCpu ht ⟨ovf, ?_⟩
  rw [← hvt]
  rfl

/-- An instruction that adjusts AL to `al` and says in AF and CF whether it adjusted each digit. -/
theorem completes_decimalAdjust {i : Instr} {f : Byte → Flags → AluOut 8} {s : State} {al : Byte} {low high : Bool}
    (hi : exec i s = complete (decimalAdjust f) s) (hr : Ready s)
    (hf : f (loByte s.cpu.ax) s.cpu.flags = ⟨al, { s.cpu.flags with af := low, cf := high }⟩) : ∃ ovf,
      Completes i s (((view s).setCpu (setReg8 .al al)).setFlags
        (setStatus ovf al.msb (decide (al = 0)) low (parity8 al) high)).done [] := by
  obtain ⟨t0, ⟨ovf, hv⟩, hfin⟩ := finishes_of hi hr fun _ => Runs.decimalAdjust
  rw [hf] at hv
  exact ⟨ovf, hfin.completes hv fun _ _ => rfl⟩

/-! ### AAA and AAS -/

theorem Runs.asciiAdjust {low high : Byte} {s s' : State} (hr : Ready s') (hv : view s' = view s) :
    Runs (asciiAdjust low high) s' fun _ t => ∃ ovf sf zf pf,
      (let adj := asciiAdjusts (loByte s.cpu.ax) s.cpu.flags
       view t = ((view s).setCpu (setReg16 .ax
        (if adj then asciiAx s.cpu.ax low high else asciiAx s.cpu.ax 0 0))).setFlags
        (setStatus ovf sf zf adj pf adj)) := by
  refine Runs.readS_bind ?_
  rw [view_cpu_eq hv]
  refine Runs.drawBit_bind hr hv fun ovf _ hr hv => Runs.drawBit_bind hr hv fun sf _ hr hv =>
    Runs.drawBit_bind hr hv fun zf _ hr hv => Runs.drawBit_bind hr hv fun pf t ht hvt => ?_
  refine Runs.modifyCpu ht ⟨ovf, sf, zf, pf, ?_⟩
  rw [← view_cpu_eq hvt, ← hvt]
  rfl

theorem completes_asciiAdjust {i : Instr} {low high : Byte} {s : State}
    (hi : exec i s = complete (asciiAdjust low high) s) (hr : Ready s) : ∃ ovf sf zf pf,
      (let adj := asciiAdjusts (loByte s.cpu.ax) s.cpu.flags
       Completes i s (((view s).setCpu (setReg16 .ax
        (if adj then asciiAx s.cpu.ax low high else asciiAx s.cpu.ax 0 0))).setFlags
        (setStatus ovf sf zf adj pf adj)).done []) := by
  obtain ⟨t0, ⟨ovf, sf, zf, pf, hv⟩, hfin⟩ := finishes_of hi hr fun _ => Runs.asciiAdjust
  exact ⟨ovf, sf, zf, pf, hfin.completes hv fun _ _ => rfl⟩

theorem asciiAx_zero (ax : Word) : asciiAx ax 0 0 = joinBytes (hiByte ax) (loByte ax &&& 0x0F#8) := by
  simp [asciiAx]

/-- AAS adds the bytes that subtract. -/
theorem asciiAx_sub (ax : Word) (low high : Byte) :
    asciiAx ax (0 - low) (0 - high) = joinBytes (hiByte ax - high) ((loByte ax - low) &&& 0x0F#8) := by
  simp [asciiAx, BitVec.sub_eq_add_neg]

/-! ### AAM and AAD -/

theorem Runs.asciiResult {ax : Word} {s : State} {v : View} (hr : Ready s) (hv : view s = v) :
    Runs (asciiResult ax) s fun _ t => ∃ ovf af cf, view t = (v.setCpu (setReg16 .ax ax)).setFlags
      (setStatus ovf (loByte ax).msb (decide (loByte ax = 0)) af (parity8 (loByte ax)) cf) := by
  refine Runs.drawBit_bind hr hv fun ovf _ hr hv => Runs.drawBit_bind hr hv fun af _ hr hv =>
    Runs.drawBit_bind hr hv fun cf t ht hvt => Runs.modifyCpu ht ⟨ovf, af, cf, ?_⟩
  rw [← hvt]
  rfl

/-- An instruction whose base may be any: the documented one, or an admitted one (R426, R427, U16). -/
theorem exec_base {i : Instr} {s : State} {base : Byte} {op : Byte → EU Unit} {documented other : Instr}
    (hdoc : exec documented s = complete (op 0x0A#8) s) (hother : exec other s = ifAdmitted .u16 (complete (op base)) s)
    (h : i = documented ∧ base = 0x0A ∨ i = other ∧ admits s.params .u16 = true) :
    exec i s = complete (op base) s := by
  rcases h with ⟨rfl, rfl⟩ | ⟨rfl, ha⟩
  · exact hdoc
  · exact hother.trans (ifAdmitted_eq ha)

theorem Runs.aamOp {base : Byte} {s s' : State} (hr : Ready s') (hv : view s' = view s) (hb : base ≠ 0) :
    Runs (aamOp base) s' fun _ t => ∃ ovf af cf, (let r := loByte s.cpu.ax % base
      view t = ((view s).setCpu (setReg16 .ax (joinBytes (loByte s.cpu.ax / base) r))).setFlags
        (setStatus ovf r.msb (decide (r = 0)) af (parity8 r) cf)) := by
  refine Runs.readS_bind ?_
  rw [view_cpu_eq hv, if_neg hb]
  refine (Runs.asciiResult hr hv).imp fun _ t h => ?_
  rw [loByte_joinBytes] at h
  exact h

theorem Runs.aadOp {base : Byte} {s s' : State} (hr : Ready s') (hv : view s' = view s) :
    Runs (aadOp base) s' fun _ t => ∃ ovf af cf, (let al := loByte s.cpu.ax + hiByte s.cpu.ax * base
      view t = ((view s).setCpu (setReg16 .ax (joinBytes 0 al))).setFlags
        (setStatus ovf al.msb (decide (al = 0)) af (parity8 al) cf)) := by
  refine Runs.readS_bind ?_
  rw [view_cpu_eq hv]
  refine (Runs.asciiResult hr hv).imp fun _ t h => ?_
  rw [loByte_joinBytes] at h
  exact h

theorem Runs.aamOp_zero {s s' : State} (hr : Ready s') (hv : view s' = view s) :
    Runs (Machine.aamOp 0) s' fun _ t => EndsInEntry s 0 s.cpu.ip t :=
  Runs.readS_bind (Runs.divideError hr hv)

theorem div_eq_ofNat (a b : Byte) : a / b = BitVec.ofNat 8 (a.toNat / b.toNat) := by
  rw [← BitVec.toNat_udiv, BitVec.ofNat_toNat, BitVec.setWidth_eq]

theorem mod_eq_ofNat (a b : Byte) : a % b = BitVec.ofNat 8 (a.toNat % b.toNat) := by
  rw [← BitVec.toNat_umod, BitVec.ofNat_toNat, BitVec.setWidth_eq]

theorem add_mul_eq_ofNat (a b c : Byte) : a + b * c = BitVec.ofNat 8 (a.toNat + b.toNat * c.toNat) := by
  rw [BitVec.ofNat_add, BitVec.ofNat_mul, BitVec.ofNat_toNat, BitVec.ofNat_toNat, BitVec.ofNat_toNat,
    BitVec.setWidth_eq, BitVec.setWidth_eq, BitVec.setWidth_eq]

/-- Settles O27: AAM with base 0 comes to the divide error, and every other base to its result. -/
theorem asciiMultiplyDivide : Obligations.AsciiMultiplyDivide := by
  intro s base hr
  refine ⟨fun i hi => ⟨fun hb => ?_, fun hb => ?_⟩, fun i hi => ?_⟩
  · have hexec := exec_base (op := aamOp) rfl rfl hi
    obtain ⟨t0, ⟨ovf, af, cf, hv⟩, hfin⟩ := finishes_of hexec hr fun _ hr' hv => Runs.aamOp hr' hv hb
    rw [div_eq_ofNat, mod_eq_ofNat] at hv
    exact ⟨ovf, af, cf, hfin.completes hv fun _ _ => rfl⟩
  · have hexec := exec_base (op := aamOp) rfl rfl hi
    subst hb
    obtain ⟨t0, hv, hfin⟩ := finishes_of hexec hr fun _ => Runs.aamOp_zero
    exact hfin.enters hv
  · have hexec := exec_base (op := aadOp) rfl rfl hi
    obtain ⟨t0, ⟨ovf, af, cf, hv⟩, hfin⟩ := finishes_of hexec hr fun _ => Runs.aadOp
    rw [add_mul_eq_ofNat] at hv
    exact ⟨ovf, af, cf, hfin.completes hv fun _ _ => rfl⟩

/-! ### CBW and CWD -/

/-- CWD, by the value of AX (R429). -/
theorem cwdOp_eq : cwdOp = modifyCpu fun c => { c with dx := if c.ax.toNat < 0x8000 then 0 else 0xFFFF } := by
  have hfill : ∀ ax : Word, (if ax.msb then 0xFFFF#16 else 0) = if ax.toNat < 0x8000 then 0 else 0xFFFF#16 := by
    intro ax
    rw [BitVec.msb_eq_decide]
    by_cases h : ax.toNat < 0x8000
    · rw [if_pos h, if_neg (by simpa using h)]
    · rw [if_neg h, if_pos (by simpa using h)]
  exact congrArg modifyCpu (funext fun c => congrArg (fun v => { c with dx := v }) (hfill c.ax))

theorem completes_modifyCpu {i : Instr} {f : Cpu → Cpu} {s : State} (hi : exec i s = complete (modifyCpu f) s)
    (hr : Ready s) : Completes i s ((view s).setCpu f).done [] :=
  completes_of_view hi hr (fun _ hr' hv => Runs.modifyCpu hr' (hv ▸ rfl)) fun _ _ => rfl

/-- Settles O28: both change one register. -/
theorem conversions : Obligations.Conversions := fun s hr =>
  ⟨completes_modifyCpu rfl hr, completes_modifyCpu (congrArg (complete · s) cwdOp_eq) hr⟩

end Sys2Proof.Machine

namespace Sys2Proof

open Machine Claims

/-- Settles O25: DAA adds and DAS subtracts one adjustment. -/
theorem decimalAdjust : Obligations.DecimalAdjust := fun _ hr =>
  ⟨completes_decimalAdjust (i := .daa) rfl hr (daaAlu_eq _ _),
    completes_decimalAdjust (i := .das) rfl hr (dasAlu_eq _ _)⟩

/-- Settles O26: both are one operation, AAS with the bytes that subtract. -/
theorem asciiAdjust : Obligations.AsciiAdjust := by
  intro s hr
  have hup := completes_asciiAdjust (i := .aaa) rfl hr
  have hdown := completes_asciiAdjust (i := .aas) rfl hr
  rw [asciiAx_zero] at hup
  rw [asciiAx_zero, asciiAx_sub] at hdown
  exact ⟨hup, hdown⟩

end Sys2Proof
end

section
/-! PROOFS. The forms of TEST and NOT (42_logic_shift.md R503, R504) and of the shifts and rotates (R510): each form's
work, written with the operands it has, then what it leaves of the view. -/

namespace Sys2Proof.Machine

open Sys2Proof.Claims

/-! ### TEST -/

/-- The work of TEST of bytes once its operands are known. -/
def testWork8 (p : Place Reg8) (src : Src8) : EU Unit := do
  let a ← readPlace8 p
  let b ← readSrc8 src
  testFlags a b

/-- The work of TEST of words once its operands are known. -/
def testWork16 (p : Place Reg16) (src : Src16) : EU Unit := do
  let a ← readPlace16 p
  let b ← readSrc16 src
  testFlags a b

/-- Every byte form of TEST does that work (R503, U11). -/
theorem exec_testByte {s : State} {i : Instr} {p : Place Reg8} {src : Src8} (h : testByte s i = some (p, src))
    (ha : admitted s.params i) : exec i s = complete (testWork8 p src) s := by
  cases i with
  | testEbGb | testAlIb | testEbIb =>
    cases h
    exact complete_congr fun _ => rfl
  | testEbIbAlias =>
    cases h
    exact (ifAdmitted_of_admitted ha rfl).trans (complete_congr fun _ => rfl)
  | _ => cases h

/-- Every word form of TEST (R503, U11). -/
theorem exec_testWord {s : State} {i : Instr} {p : Place Reg16} {src : Src16} (h : testWord s i = some (p, src))
    (ha : admitted s.params i) : exec i s = complete (testWork16 p src) s := by
  cases i with
  | testEwGw | testAxIw | testEwIw =>
    cases h
    exact complete_congr fun _ => rfl
  | testEwIwAlias =>
    cases h
    exact (ifAdmitted_of_admitted ha rfl).trans (complete_congr fun _ => rfl)
  | _ => cases h

/-- The view after TEST of `a` and `b`, AF being `af` (R503, R403). -/
def View.tested {w : Nat} (v : View) (a b : BitVec w) (af : Bool) : View :=
  v.setFlags (setStatus false (a &&& b).msb (decide (a &&& b = 0)) af (parity8 (a &&& b)) false)

theorem Runs.testFlags {w : Nat} {a b : BitVec w} {s : State} (hr : Ready s) :
    Runs (testFlags a b) s fun _ t => ∃ af, view t = (view s).tested a b af := by
  refine (Runs.aluCompute hr).bind ?_
  rintro _ t ht ⟨af, -, hv⟩
  exact Runs.pure ht ⟨af, hv⟩

theorem Runs.testWork8 {p : Place Reg8} {src : Src8} {s s' : State} (hr : Ready s') (hv : view s' = view s) :
    Runs (testWork8 p src) s' fun _ t => ∃ a b af, (view s).Value8 p a ∧ src.Is (view s) b ∧
      view t = (view s).tested a b af := by
  rw [← hv]
  refine (Runs.readPlace8 hr).bind ?_
  rintro a t ht ⟨ha, hvt⟩
  refine (Runs.readSrc8 ht).bind ?_
  rintro b u hu ⟨hb, hvu⟩
  rw [hvt] at hb hvu
  exact (Runs.testFlags hu).imp fun _ _ ⟨af, h⟩ => ⟨a, b, af, ha, hb, hvu ▸ h⟩

theorem Runs.testWork16 {p : Place Reg16} {src : Src16} {s s' : State} (hr : Ready s') (hv : view s' = view s) :
    Runs (testWork16 p src) s' fun _ t => ∃ a b af, (view s).Value16 p a ∧ src.Is (view s) b ∧
      view t = (view s).tested a b af := by
  rw [← hv]
  refine (Runs.readPlace16 hr).bind ?_
  rintro a t ht ⟨ha, hvt⟩
  refine (Runs.readSrc16 ht).bind ?_
  rintro b u hu ⟨hb, hvu⟩
  rw [hvt] at hb hvu
  exact (Runs.testFlags hu).imp fun _ _ ⟨af, h⟩ => ⟨a, b, af, ha, hb, hvu ▸ h⟩

/-- Settles O18: both operands are taken, then the flags of AND are written and the result is dropped. -/
theorem testForms : Obligations.TestForms := by
  constructor
  · intro s i p src h ha hr
    obtain ⟨t0, ⟨a, b, af, hp, hsrc, hv⟩, hfin⟩ := finishes_of (exec_testByte h ha) hr fun _ => Runs.testWork8
    exact ⟨a, b, af, hp, hsrc, hfin.completes hv fun _ _ => rfl⟩
  · intro s i p src h ha hr
    obtain ⟨t0, ⟨a, b, af, hp, hsrc, hv⟩, hfin⟩ := finishes_of (exec_testWord h ha) hr fun _ => Runs.testWork16
    exact ⟨a, b, af, hp, hsrc, hfin.completes hv fun _ _ => rfl⟩

/-! ### NOT -/

/-- NOT of a byte takes its operand and writes its exclusive or with all ones (R504). -/
theorem exec_notEb (s : State) (e : Rm Reg8) : exec (.notEb e) s =
    complete (readPlace8 (place s e) >>= fun a => writePlace8 (place s e) (a ^^^ 0xFF#8)) s := by
  have hones : ∀ a : Byte, a ^^^ 0xFF#8 = ~~~ a := fun _ => BitVec.xor_allOnes
  simp only [hones]
  exact complete_congr fun _ => rfl

theorem exec_notEw (s : State) (e : Rm Reg16) : exec (.notEw e) s =
    complete (readPlace16 (place s e) >>= fun a => writePlace16 (place s e) (a ^^^ 0xFFFF#16)) s := by
  have hones : ∀ a : Word, a ^^^ 0xFFFF#16 = ~~~ a := fun _ => BitVec.xor_allOnes
  simp only [hones]
  exact complete_congr fun _ => rfl

/-- Settles O19: the operand is taken, and its complement is written. -/
theorem notForms : Obligations.NotForms := by
  constructor
  · intro s e hr
    exact completes_of_take (exec_notEb s e) hr (w := view s) (fun _ hr' hv => hv ▸ Runs.readPlace8 hr')
      (fun _ _ ht hv => hv ▸ Runs.writePlace8 ht) fun _ _ => write8_kept
  · intro s e hr
    exact completes_of_take (exec_notEw s e) hr (w := view s) (fun _ hr' hv => hv ▸ Runs.readPlace16 hr')
      (fun _ _ ht hv => hv ▸ Runs.writePlace16 ht) fun _ _ => write16_kept

/-! ### The forms of the shifts and rotates -/

/-- Every byte form is a shift of its operand by 1 or by CL (R510). -/
theorem exec_shiftByte {s : State} {i : Instr} {k : ShiftKind} {n : Nat} {dst : Place Reg8}
    (h : shiftByte s i = some (k, n, dst)) : ∃ e, place s e = dst ∧ exec i s = complete (shift8 k n e) s := by
  cases i with
  | rolEb1 | rorEb1 | rclEb1 | rcrEb1 | shlEb1 | shrEb1 | sarEb1 =>
    cases h
    exact ⟨_, rfl, rfl⟩
  | rolEbCl | rorEbCl | rclEbCl | rcrEbCl | shlEbCl | shrEbCl | sarEbCl =>
    cases h
    exact ⟨_, rfl, complete_congr fun _ => rfl⟩
  | _ => cases h

/-- Every word form (R510). -/
theorem exec_shiftWord {s : State} {i : Instr} {k : ShiftKind} {n : Nat} {dst : Place Reg16}
    (h : shiftWord s i = some (k, n, dst)) : ∃ e, place s e = dst ∧ exec i s = complete (shift16 k n e) s := by
  cases i with
  | rolEw1 | rorEw1 | rclEw1 | rcrEw1 | shlEw1 | shrEw1 | sarEw1 =>
    cases h
    exact ⟨_, rfl, rfl⟩
  | rolEwCl | rorEwCl | rclEwCl | rcrEwCl | shlEwCl | shrEwCl | sarEwCl =>
    cases h
    exact ⟨_, rfl, complete_congr fun _ => rfl⟩
  | _ => cases h

theorem store8_setFlags (v : View) (seg off : Word) (b : Byte) (f : Flags → Flags) :
    (v.setFlags f).store8 seg off b = (v.store8 seg off b).setFlags f := by
  unfold View.store8
  simp only [setFlagsView_params]
  split <;> rfl

/-- The flags written before the operand matter no more once all are written after it. -/
theorem write8_between_setFlags (v : View) (p : Place Reg8) (b : Byte) (f : Flags → Flags) (g : Flags) :
    ((v.setFlags f).write8 p b).setFlags (fun _ => g) = (v.write8 p b).setFlags fun _ => g := by
  cases p with
  | reg r => cases r <;> rfl
  | mem seg off =>
    show ((v.setFlags f).store8 seg off b).setFlags _ = _
    rw [store8_setFlags]
    rfl

theorem write16_between_setFlags (v : View) (p : Place Reg16) (w : Word) (f : Flags → Flags) (g : Flags) :
    ((v.setFlags f).write16 p w).setFlags (fun _ => g) = (v.write16 p w).setFlags fun _ => g := by
  cases p with
  | reg r => cases r <;> rfl
  | mem seg off =>
    show ((v.setFlags f).store16 seg off w).setFlags _ = _
    rw [View.store16, store8_setFlags, store8_setFlags]
    rfl

theorem Runs.shiftFlags {w : Nat} {k : ShiftKind} {n : Nat} {x : BitVec w} {f : Flags} {s : State} (hr : Ready s) :
    Runs (shiftFlags k n x f) s fun _ t => ∃ ovf af,
      view t = (view s).setFlags fun _ => (shiftResult k n x ovf af f).flags := by
  refine (Runs.drawIf hr).bind fun ovf t ht hv => (Runs.drawIf ht).bind fun af u hu hvu => ?_
  exact Runs.modifyFlags hu ⟨ovf, af, hv ▸ hvu ▸ rfl⟩

theorem Runs.shift8 {k : ShiftKind} {n : Nat} {e : Rm Reg8} {s s' : State} (hr : Ready s') (hv : view s' = view s) :
    Runs (shift8 k n e) s' fun _ t => ∃ x, (view s).Value8 (place s e) x ∧ (n = 0 → view t = view s) ∧
      (n ≠ 0 → ∃ ovf af, view t = ((view s).write8 (place s e) (shiftSteps k n x s.cpu.flags.cf).1).setFlags
        fun _ => (shiftResult k n x ovf af s.cpu.flags).flags) := by
  refine Runs.operand8 hr hv fun x t ht hvt hx => ?_
  by_cases hn : n = 0
  · rw [if_pos hn]
    exact Runs.pure ht ⟨x, hx, fun _ => hvt, absurd hn⟩
  · rw [if_neg hn]
    refine Runs.setFlags_bind ht hvt fun u hu hvu => (Runs.writePlace8 hu).bind fun _ r hr' hvr => ?_
    refine (Runs.shiftFlags hr').imp fun _ _ ⟨ovf, af, h⟩ => ⟨x, hx, (absurd · hn), fun _ => ⟨ovf, af, ?_⟩⟩
    rw [h, hvr, hvu, write8_between_setFlags]

theorem Runs.shift16 {k : ShiftKind} {n : Nat} {e : Rm Reg16} {s s' : State} (hr : Ready s') (hv : view s' = view s) :
    Runs (shift16 k n e) s' fun _ t => ∃ x, (view s).Value16 (place s e) x ∧ (n = 0 → view t = view s) ∧
      (n ≠ 0 → ∃ ovf af, view t = ((view s).write16 (place s e) (shiftSteps k n x s.cpu.flags.cf).1).setFlags
        fun _ => (shiftResult k n x ovf af s.cpu.flags).flags) := by
  refine Runs.operand16 hr hv fun x t ht hvt hx => ?_
  by_cases hn : n = 0
  · rw [if_pos hn]
    exact Runs.pure ht ⟨x, hx, fun _ => hvt, absurd hn⟩
  · rw [if_neg hn]
    refine Runs.setFlags_bind ht hvt fun u hu hvu => (Runs.writePlace16 hu).bind fun _ r hr' hvr => ?_
    refine (Runs.shiftFlags hr').imp fun _ _ ⟨ovf, af, h⟩ => ⟨x, hx, (absurd · hn), fun _ => ⟨ovf, af, ?_⟩⟩
    rw [h, hvr, hvu, write16_between_setFlags]

/-- Settles O20: the operand is taken; with a count of 0 that is all, else it and then the flags are written. -/
theorem shiftForms : Obligations.ShiftForms := by
  constructor
  · intro s i k n dst h hr
    obtain ⟨e, rfl, hi⟩ := exec_shiftByte h
    obtain ⟨t0, ⟨x, hx, hzero, hpos⟩, hfin⟩ := finishes_of hi hr fun _ => Runs.shift8
    refine ⟨x, hx, fun hn => hfin.completes (hzero hn) fun _ _ => rfl, fun hn => ?_⟩
    obtain ⟨ovf, af, hv⟩ := hpos hn
    exact ⟨ovf, af, hfin.completes hv fun _ => write8_kept⟩
  · intro s i k n dst h hr
    obtain ⟨e, rfl, hi⟩ := exec_shiftWord h
    obtain ⟨t0, ⟨x, hx, hzero, hpos⟩, hfin⟩ := finishes_of hi hr fun _ => Runs.shift16
    refine ⟨x, hx, fun hn => hfin.completes (hzero hn) fun _ _ => rfl, fun hn => ?_⟩
    obtain ⟨ovf, af, hv⟩ := hpos hn
    exact ⟨ovf, af, hfin.completes hv fun _ => write16_kept⟩

end Sys2Proof.Machine
end

section
/-! PROOFS. The values and flags of the shifts and rotates (42_logic_shift.md R510 to R517): what one step does, and
from it what any number of steps does, as an operation on bit vectors; then as arithmetic. -/

namespace Sys2Proof.Machine

open Sys2Proof.Claims

/-! ### Rotations -/

/-- Bits above the top come in again at the bottom. -/
theorem getLsbD_rotateRight_eq_mod {w : Nat} (x : BitVec w) (r : Nat) {i : Nat} (hi : i < w) :
    (x.rotateRight r).getLsbD i = x.getLsbD ((r + i) % w) := by
  have hr : r % w < w := Nat.mod_lt _ (by omega)
  rw [BitVec.getLsbD_rotateRight, Nat.add_mod, Nat.mod_eq_of_lt hi]
  by_cases h : i < w - r % w
  · simp [h, Nat.mod_eq_of_lt (show r % w + i < w by omega)]
  · have hwrap : (r % w + i) % w = i - (w - r % w) := by
      rw [Nat.mod_eq_sub_mod (by omega), Nat.mod_eq_of_lt (by omega)]
      omega
    simp [h, hi, hwrap]

theorem rotateLeft_add {w : Nat} (x : BitVec w) (m n : Nat) : x.rotateLeft (m + n) = (x.rotateLeft m).rotateLeft n := by
  refine BitVec.eq_of_getMsbD_eq fun i hi => ?_
  have hlt : (n + i) % w < w := Nat.mod_lt _ (by omega)
  simp [BitVec.getMsbD_rotateLeft, hi, hlt, Nat.add_assoc]

theorem rotateRight_add {w : Nat} (x : BitVec w) (m n : Nat) :
    x.rotateRight (m + n) = (x.rotateRight m).rotateRight n := by
  refine BitVec.eq_of_getLsbD_eq fun i hi => ?_
  have hlt : (n + i) % w < w := Nat.mod_lt _ (by omega)
  rw [getLsbD_rotateRight_eq_mod _ _ hi, getLsbD_rotateRight_eq_mod _ _ hi, getLsbD_rotateRight_eq_mod _ _ hlt,
    Nat.add_mod_mod, Nat.add_assoc]

theorem rotateLeft_zero {w : Nat} (x : BitVec w) : x.rotateLeft 0 = x := by
  refine BitVec.eq_of_getMsbD_eq fun i hi => ?_
  simp [BitVec.getMsbD_rotateLeft, hi, Nat.mod_eq_of_lt]

theorem rotateRight_zero {w : Nat} (x : BitVec w) : x.rotateRight 0 = x := by
  refine BitVec.eq_of_getLsbD_eq fun i hi => ?_
  rw [getLsbD_rotateRight_eq_mod _ _ hi, Nat.zero_add, Nat.mod_eq_of_lt hi]

/-! ### One step -/

section Step

variable {w : Nat} (x : BitVec w) (c : Bool)

theorem getLsbD_rotateLeft_one {i : Nat} (hi : i < w) :
    (x.rotateLeft 1).getLsbD i = if i = 0 then x.msb else x.getLsbD (i - 1) := by
  rw [BitVec.getLsbD_eq_getMsbD, BitVec.getMsbD_rotateLeft]
  cases i with
  | zero => simp [hi, show 1 + (w - 1) = w by omega, BitVec.msb_eq_getMsbD_zero]
  | succ i =>
    rw [BitVec.getLsbD_eq_getMsbD x, Nat.mod_eq_of_lt (by omega), show 1 + (w - 1 - (i + 1)) = w - 1 - i by omega]
    simp [hi, show i < w by omega, show w - 1 - (i + 1) < w by omega]

theorem getLsbD_rotateRight_one {i : Nat} (hi : i < w) :
    (x.rotateRight 1).getLsbD i = if i + 1 = w then x.getLsbD 0 else x.getLsbD (i + 1) := by
  rw [getLsbD_rotateRight_eq_mod x 1 hi, Nat.add_comm 1 i]
  split_ifs with h
  · rw [h, Nat.mod_self]
  · rw [Nat.mod_eq_of_lt (by omega)]

/-- A bit shifted in at the bottom. -/
theorem getLsbD_shiftIn_low {i : Nat} (hi : i < w) : ((x <<< 1) ||| (BitVec.ofBool c).setWidth w).getLsbD i =
    if i = 0 then c else x.getLsbD (i - 1) := by
  cases i with
  | zero => simp [hi]
  | succ i => simp [hi, BitVec.getLsbD_eq_getElem (show i < w by omega)]

/-- A bit shifted in at the top. -/
theorem getLsbD_shiftIn_high {i : Nat} (hi : i < w) :
    ((x >>> 1) ||| ((BitVec.ofBool c).setWidth w <<< (w - 1))).getLsbD i =
      if i + 1 = w then c else x.getLsbD (i + 1) := by
  by_cases h : i + 1 = w
  · simp [hi, h, show ¬ i < w - 1 by omega, show i - (w - 1) = 0 by omega, Nat.add_comm 1 i]
  · simp [hi, h, show i < w - 1 by omega, Nat.add_comm 1 i]

theorem shiftStep_rol : (shiftStep .rol x c).1 = x.rotateLeft 1 :=
  BitVec.eq_of_getLsbD_eq fun _ hi => (getLsbD_shiftIn_low x x.msb hi).trans (getLsbD_rotateLeft_one x hi).symm

theorem shiftStep_ror : (shiftStep .ror x c).1 = x.rotateRight 1 :=
  BitVec.eq_of_getLsbD_eq fun _ hi =>
    (getLsbD_shiftIn_high x (x.getLsbD 0) hi).trans (getLsbD_rotateRight_one x hi).symm

/-- SAR shifts the sign in (R517). -/
theorem shiftStep_sar : (shiftStep .sar x c).1 = x.sshiftRight 1 := by
  refine BitVec.eq_of_getLsbD_eq fun i hi => (getLsbD_shiftIn_high x x.msb hi).trans ?_
  rw [BitVec.getLsbD_sshiftRight, Nat.add_comm 1 i]
  by_cases h : i + 1 = w
  · rw [if_pos h, if_neg (by omega)]
    simp [hi]
  · rw [if_neg h, if_pos (by omega)]
    simp [hi]

variable (hw : 0 < w)

include hw

/-- RCL rotates the value with CF above it (R513). -/
theorem shiftStep_rcl :
    BitVec.cons (shiftStep .rcl x c).2 (shiftStep .rcl x c).1 = (BitVec.cons c x).rotateLeft 1 := by
  refine BitVec.eq_of_getLsbD_eq fun i hi => ?_
  rw [getLsbD_rotateLeft_one _ hi, BitVec.getLsbD_cons, BitVec.getLsbD_cons, BitVec.msb_cons]
  by_cases h : i = w
  · rw [if_pos h, if_neg (show i ≠ 0 by omega), if_neg (show i - 1 ≠ w by omega), h]
    exact BitVec.msb_eq_getLsbD_last x
  · rw [if_neg h, if_neg (show i - 1 ≠ w by omega)]
    exact getLsbD_shiftIn_low x c (by omega)

/-- RCR rotates the value with CF above it (R514). -/
theorem shiftStep_rcr :
    BitVec.cons (shiftStep .rcr x c).2 (shiftStep .rcr x c).1 = (BitVec.cons c x).rotateRight 1 := by
  refine BitVec.eq_of_getLsbD_eq fun i hi => ?_
  rw [getLsbD_rotateRight_one _ hi, BitVec.getLsbD_cons, BitVec.getLsbD_cons, BitVec.getLsbD_cons]
  by_cases h : i = w
  · rw [if_pos h, if_pos (congrArg (· + 1) h), if_neg (show 0 ≠ w by omega)]
    rfl
  · simp only [if_neg h, show i + 1 ≠ w + 1 by omega, if_false]
    exact getLsbD_shiftIn_high x c (by omega)

end Step

/-! ### Many steps -/

/-- The last step of `n + 1`. -/
theorem shiftSteps_succ_last {w : Nat} (k : ShiftKind) (n : Nat) (x : BitVec w) (c : Bool) :
    shiftSteps k (n + 1) x c = shiftStep k (shiftSteps k n x c).1 (shiftSteps k n x c).2 := by
  induction n generalizing x c with
  | zero => rfl
  | succ n ih => exact ih _ _

/-- A shift or rotate by any count from its step: when one step does to a part `g` of the value and CF what `op` by 1
does, and `op` adds up, `n` steps do what `op` by `n` does. -/
theorem shiftSteps_part {w : Nat} {β : Type} {k : ShiftKind} (g : BitVec w → Bool → β) (op : β → Nat → β)
    (hzero : ∀ b, op b 0 = b) (hadd : ∀ b m n, op b (m + n) = op (op b m) n)
    (hstep : ∀ x c, g (shiftStep k x c).1 (shiftStep k x c).2 = op (g x c) 1) (n : Nat) (x : BitVec w) (c : Bool) :
    g (shiftSteps k n x c).1 (shiftSteps k n x c).2 = op (g x c) n := by
  induction n with
  | zero => exact (hzero _).symm
  | succ n ih => rw [shiftSteps_succ_last, hstep, ih, hadd]

/-! ### Values -/

section Values

variable {w : Nat} (n : Nat) (x : BitVec w) (c : Bool)

theorem shiftSteps_shl : (shiftSteps .shl n x c).1 = x <<< n :=
  shiftSteps_part (fun x _ => x) (· <<< ·) BitVec.shiftLeft_zero BitVec.shiftLeft_add (fun _ _ => rfl) n x c

theorem shiftSteps_shr : (shiftSteps .shr n x c).1 = x >>> n :=
  shiftSteps_part (fun x _ => x) (· >>> ·) BitVec.ushiftRight_zero BitVec.shiftRight_add (fun _ _ => rfl) n x c

theorem shiftSteps_sar : (shiftSteps .sar n x c).1 = x.sshiftRight n :=
  shiftSteps_part (fun x _ => x) BitVec.sshiftRight (fun _ => BitVec.sshiftRight_zero)
    (fun _ _ _ => BitVec.sshiftRight_add) shiftStep_sar n x c

theorem shiftSteps_rol : (shiftSteps .rol n x c).1 = x.rotateLeft n :=
  shiftSteps_part (fun x _ => x) BitVec.rotateLeft rotateLeft_zero rotateLeft_add shiftStep_rol n x c

theorem shiftSteps_ror : (shiftSteps .ror n x c).1 = x.rotateRight n :=
  shiftSteps_part (fun x _ => x) BitVec.rotateRight rotateRight_zero rotateRight_add shiftStep_ror n x c

variable (hw : 0 < w)

include hw

theorem shiftSteps_rcl : BitVec.cons (shiftSteps .rcl n x c).2 (shiftSteps .rcl n x c).1 =
    (BitVec.cons c x).rotateLeft n :=
  shiftSteps_part (fun x c => BitVec.cons c x) BitVec.rotateLeft rotateLeft_zero rotateLeft_add (shiftStep_rcl · · hw)
    n x c

theorem shiftSteps_rcr : BitVec.cons (shiftSteps .rcr n x c).2 (shiftSteps .rcr n x c).1 =
    (BitVec.cons c x).rotateRight n :=
  shiftSteps_part (fun x c => BitVec.cons c x) BitVec.rotateRight rotateRight_zero rotateRight_add (shiftStep_rcr · · hw)
    n x c

end Values

/-! ### Carries -/

section Carries

variable {w : Nat} (n : Nat) (x : BitVec w) (c : Bool)

/-- The lowest bit of a signed value says whether it is odd. -/
theorem getLsbD_zero_eq_toInt (hw : 0 < w) (y : BitVec w) : y.getLsbD 0 = decide (y.toInt % 2 = 1) := by
  have hpow := Nat.two_pow_pred_add_two_pow_pred hw
  rw [BitVec.getLsbD, Nat.testBit_zero, BitVec.toInt_eq_toNat_cond, decide_eq_decide]
  split_ifs <;> omega

theorem shiftSteps_shr_carry : (shiftSteps .shr (n + 1) x c).2 = decide (x.toNat / 2 ^ n % 2 = 1) := by
  calc (shiftSteps .shr (n + 1) x c).2
      _ = (shiftSteps .shr n x c).1.getLsbD 0 := congrArg Prod.snd (shiftSteps_succ_last .shr n x c)
      _ = _ := by rw [shiftSteps_shr, BitVec.getLsbD, Nat.testBit_zero, BitVec.toNat_ushiftRight,
        Nat.shiftRight_eq_div_pow]

variable (hw : 0 < w)

include hw

theorem shiftSteps_shl_carry :
    (shiftSteps .shl (n + 1) x c).2 = decide (x.toNat * 2 ^ (n + 1) / 2 ^ w % 2 = 1) := by
  have hdiv : x.toNat * 2 ^ (n + 1) / 2 ^ w = x.toNat * 2 ^ n / 2 ^ (w - 1) := by
    obtain ⟨v, rfl⟩ : ∃ v, w = v + 1 := ⟨w - 1, by omega⟩
    rw [pow_succ, pow_succ, ← Nat.mul_assoc, Nat.mul_div_mul_right _ _ (by decide)]
    rfl
  have hbit : (x <<< n).msb = (x.toNat * 2 ^ n).testBit (w - 1) := by
    rw [BitVec.msb_eq_getLsbD_last, BitVec.getLsbD, BitVec.toNat_shiftLeft, Nat.testBit_mod_two_pow, Nat.shiftLeft_eq]
    simp [show w - 1 < w by omega]
  calc (shiftSteps .shl (n + 1) x c).2
      _ = (shiftSteps .shl n x c).1.msb := congrArg Prod.snd (shiftSteps_succ_last .shl n x c)
      _ = _ := by rw [shiftSteps_shl, hbit, Nat.testBit_eq_decide_div_mod_eq, hdiv]

theorem shiftSteps_sar_carry : (shiftSteps .sar (n + 1) x c).2 = decide (x.toInt / 2 ^ n % 2 = 1) := by
  calc (shiftSteps .sar (n + 1) x c).2
      _ = (shiftSteps .sar n x c).1.getLsbD 0 := congrArg Prod.snd (shiftSteps_succ_last .sar n x c)
      _ = _ := by rw [shiftSteps_sar, getLsbD_zero_eq_toInt hw, BitVec.toInt_sshiftRight,
        Int.shiftRight_eq_div_pow, Nat.cast_pow, Nat.cast_ofNat]

theorem shiftSteps_rol_carry : (shiftSteps .rol (n + 1) x c).2 = (x.rotateLeft (n + 1)).getLsbD 0 := by
  calc (shiftSteps .rol (n + 1) x c).2
      _ = (shiftSteps .rol n x c).1.msb := congrArg Prod.snd (shiftSteps_succ_last .rol n x c)
      _ = _ := by rw [shiftSteps_rol, rotateLeft_add, getLsbD_rotateLeft_one _ hw, if_pos rfl]

theorem shiftSteps_ror_carry : (shiftSteps .ror (n + 1) x c).2 = (x.rotateRight (n + 1)).msb := by
  calc (shiftSteps .ror (n + 1) x c).2
      _ = (shiftSteps .ror n x c).1.getLsbD 0 := congrArg Prod.snd (shiftSteps_succ_last .ror n x c)
      _ = _ := by rw [shiftSteps_ror, rotateRight_add, BitVec.msb_eq_getLsbD_last,
        getLsbD_rotateRight_one _ (show w - 1 < w by omega), if_pos (show w - 1 + 1 = w by omega)]

end Carries

/-! ### The rules of R510 to R517 -/

theorem shiftValueRule_of_pos {w : Nat} (hw : 0 < w) : shiftValueRule w := by
  intro n x c
  refine ⟨?_, ?_, ?_, shiftSteps_rol n x c, shiftSteps_ror n x c, shiftSteps_rcl n x c hw,
    shiftSteps_rcr n x c hw, fun hn => ?_⟩
  · rw [shiftSteps_shl, BitVec.toNat_shiftLeft, Nat.shiftLeft_eq]
  · rw [shiftSteps_shr, BitVec.toNat_ushiftRight, Nat.shiftRight_eq_div_pow]
  · rw [shiftSteps_sar, BitVec.toInt_sshiftRight, Int.shiftRight_eq_div_pow, Nat.cast_pow, Nat.cast_ofNat]
  · obtain ⟨m, rfl⟩ := Nat.exists_eq_succ_of_ne_zero hn
    exact ⟨shiftSteps_shl_carry m x c hw, shiftSteps_shr_carry m x c, shiftSteps_sar_carry m x c hw,
      shiftSteps_rol_carry m x c hw, shiftSteps_ror_carry m x c hw⟩

/-- OF after one step depends on the kind, and which of the other flags are set on whether the kind is a shift. -/
theorem shiftFlagRule_all (w : Nat) : shiftFlagRule w := by
  intro k n x ovf af f
  cases k with
  | rol | ror | rcl | rcr => rfl
  | shl | shr | sar => rfl

/-- Settles O21: the operation on bit vectors that the steps come to, read as arithmetic. -/
theorem shiftValues : Obligations.ShiftValues :=
  ⟨⟨shiftValueRule_of_pos (by decide), shiftValueRule_of_pos (by decide)⟩, shiftFlagRule_all 8, shiftFlagRule_all 16⟩

end Sys2Proof.Machine
end

section
/-! PROOFS. The string instructions (43_string.md R600 to R607): how SI and DI move and what an element's operands
are, then one element of each. -/

namespace Sys2Proof.Machine

open Sys2Proof.Claims

/-! ### SI and DI -/

theorem add_stringDelta (x n : Word) (df : Bool) : x + stringDelta df n = if df then x - n else x + n := by
  cases df with
  | false => rfl
  | true => simp [stringDelta, BitVec.sub_eq_add_neg]

theorem advanceSi_eq (n : Word) : advanceSi n = modifyCpu (advanceSource n) := by
  simp only [advanceSi, add_stringDelta]
  rfl

theorem advanceDi_eq (n : Word) : advanceDi n = modifyCpu (advanceDest n) := by
  simp only [advanceDi, add_stringDelta]
  rfl

/-- Moving SI, then DI, moves both: DF stays as it is. -/
theorem advanceSi_advanceDi (n : Word) :
    (do advanceSi n; advanceDi n : EU Unit) = modifyCpu (advanceBoth n) := by
  rw [advanceSi_eq, advanceDi_eq]
  rfl

/-! ### The operands of an element -/

/-- The segment in force depends on the view alone. -/
theorem segValue_congr {s t : State} (h : view t = view s) (r : SReg) : segValue t r = segValue s r := by
  simp [segValue, view_cpu_eq h, view_eu_eq h]

theorem Runs.sourceByte {s s' : State} (hr : Ready s') (hv : view s' = view s) :
    Runs sourceByte s' fun b t => (view s).Holds8 (segValue s .ds) s.cpu.si b ∧ view t = view s := by
  rw [← hv, ← segValue_congr hv, ← view_cpu_eq hv]
  exact Runs.readS_bind (Runs.memRead8 hr)

theorem Runs.sourceWord {s s' : State} (hr : Ready s') (hv : view s' = view s) :
    Runs sourceWord s' fun w t => (view s).Holds16 (segValue s .ds) s.cpu.si w ∧ view t = view s := by
  rw [← hv, ← segValue_congr hv, ← view_cpu_eq hv]
  exact Runs.readS_bind (Runs.memRead16 hr)

theorem Runs.destByte {s s' : State} (hr : Ready s') (hv : view s' = view s) :
    Runs destByte s' fun b t => (view s).Holds8 s.cpu.es s.cpu.di b ∧ view t = view s := by
  rw [← hv, ← view_cpu_eq hv]
  exact Runs.readS_bind (Runs.memRead8 hr)

theorem Runs.destWord {s s' : State} (hr : Ready s') (hv : view s' = view s) :
    Runs destWord s' fun w t => (view s).Holds16 s.cpu.es s.cpu.di w ∧ view t = view s := by
  rw [← hv, ← view_cpu_eq hv]
  exact Runs.readS_bind (Runs.memRead16 hr)

theorem Runs.storeDestByte {b : Byte} {s s' : State} (hr : Ready s') (hv : view s' = view s) :
    Runs (storeDestByte b) s' fun _ t => view t = (view s).store8 s.cpu.es s.cpu.di b := by
  rw [← hv, ← view_cpu_eq hv]
  exact Runs.readS_bind (Runs.memWrite8 hr)

theorem Runs.storeDestWord {w : Word} {s s' : State} (hr : Ready s') (hv : view s' = view s) :
    Runs (storeDestWord w) s' fun _ t => view t = (view s).store16 s.cpu.es s.cpu.di w := by
  rw [← hv, ← view_cpu_eq hv]
  exact Runs.readS_bind (Runs.memWrite16 hr)

/-- Work that ends with a change of the register file. -/
theorem Runs.bind_modifyCpu {m : EU Unit} {f : Cpu → Cpu} {s : State} {v : View}
    (hm : Runs m s fun _ t => view t = v) :
    Runs (m >>= fun _ => Machine.modifyCpu f) s fun _ t => view t = v.setCpu f :=
  hm.bind fun _ _ ht hv => Runs.modifyCpu ht (hv ▸ rfl)

/-- Work that ends with the flags of a comparison and a change of the register file (R603, R604). -/
theorem Runs.compareFlags_modifyCpu {w : Nat} {a b : BitVec w} {f : Cpu → Cpu} {s : State} {v : View}
    (hr : Ready s) (hv : view s = v) :
    Runs (compareFlags a b >>= fun _ => Machine.modifyCpu f) s fun _ t =>
      view t = (v.setFlags fun fl => (subAlu a b false fl).flags).setCpu f :=
  Runs.bind_modifyCpu (Runs.modifyFlags hr (hv ▸ rfl))

/-- Work that takes a value and compares `a` with it, then changes the register file (R603, R604). -/
theorem Runs.compareWith {w : Nat} {m : EU (BitVec w)} {a : BitVec w} {B : BitVec w → Prop} {f : Cpu → Cpu}
    {s : State} {v : View} (hm : Runs m s fun b t => B b ∧ view t = v) :
    Runs (m >>= fun b => compareFlags a b >>= fun _ => Machine.modifyCpu f) s fun _ t =>
      ∃ b, B b ∧ view t = (v.setFlags fun fl => (subAlu a b false fl).flags).setCpu f :=
  hm.bind fun b _ ht ⟨hb, hv⟩ => (Runs.compareFlags_modifyCpu ht hv).imp fun _ _ h => ⟨b, hb, h⟩

/-! ### One element or none -/

/-- A string instruction that no repetition is asked of is one element (R601). -/
theorem complete_repString_once {element : EU Unit} {isCompare : Bool} {s : State} (h : s.eu.rep = .none) :
    complete (repString element isCompare) s = complete element s := by
  refine complete_congr fun _ => ?_
  change (if s.eu.rep = .none then element else _) _ = element _
  rw [if_pos h]

/-- Under one of the repeat prefixes it is the loop over CX elements (R601). -/
theorem complete_repString_loop {element : EU Unit} {isCompare : Bool} {s : State} (h : s.eu.rep ≠ .none) :
    complete (repString element isCompare) s = complete (repLoop element isCompare s.cpu.cx.toNat) s := by
  refine complete_congr fun _ => ?_
  change (if s.eu.rep = .none then _ else repLoop element isCompare s.cpu.cx.toNat) _ = _
  rw [if_neg h]

/-- Every string instruction is its element, repeated as the prefixes say. -/
theorem exec_string {s : State} {i : Instr} (h : isString i = true) :
    ∃ element isCompare, exec i s = complete (repString element isCompare) s := by
  cases i with
  | movsb | movsw | cmpsb | cmpsw | scasb | scasw | lodsb | lodsw | stosb | stosw => exact ⟨_, _, rfl⟩
  | _ => cases h

/-- R601, R607: with CX = 0 no element is done. -/
theorem completes_string_of_cx_zero {s : State} {i : Instr} (hr : Ready s) (hi : isString i = true)
    (hrep : s.eu.rep ≠ .none) (hcx : s.cpu.cx = 0) : Completes i s (view s).done [] := by
  obtain ⟨element, isCompare, he⟩ := exec_string (s := s) hi
  rw [complete_repString_loop hrep, hcx] at he
  exact (completes_pure he hr).1

/-! ### The elements, as operands taken and then written -/

theorem movsbElement_eq :
    movsbElement = sourceByte >>= fun b => storeDestByte b >>= fun _ => modifyCpu (advanceBoth 1) := by
  rw [← advanceSi_advanceDi]
  rfl

theorem movswElement_eq :
    movswElement = sourceWord >>= fun w => storeDestWord w >>= fun _ => modifyCpu (advanceBoth 2) := by
  rw [← advanceSi_advanceDi]
  rfl

theorem lodsbElement_eq :
    lodsbElement = sourceByte >>= fun b => putReg8 .al b >>= fun _ => modifyCpu (advanceSource 1) := by
  rw [← advanceSi_eq]
  rfl

theorem lodswElement_eq :
    lodswElement = sourceWord >>= fun w => putReg16 .ax w >>= fun _ => modifyCpu (advanceSource 2) := by
  rw [← advanceSi_eq]
  rfl

/-- STOSB stores AL (R606). -/
theorem Runs.stosbElement {s s' : State} (hr : Ready s') (hv : view s' = view s) : Runs stosbElement s' fun _ t =>
    view t = ((view s).store8 s.cpu.es s.cpu.di (reg8 s.cpu .al)).setCpu (advanceDest 1) := by
  unfold Machine.stosbElement
  refine Runs.readS_bind ?_
  rw [view_cpu_eq hv, advanceDi_eq]
  exact Runs.bind_modifyCpu (Runs.storeDestByte hr hv)

/-- STOSW stores AX (R606). -/
theorem Runs.stoswElement {s s' : State} (hr : Ready s') (hv : view s' = view s) : Runs stoswElement s' fun _ t =>
    view t = ((view s).store16 s.cpu.es s.cpu.di s.cpu.ax).setCpu (advanceDest 2) := by
  unfold Machine.stoswElement
  refine Runs.readS_bind ?_
  rw [view_cpu_eq hv, advanceDi_eq]
  exact Runs.bind_modifyCpu (Runs.storeDestWord hr hv)

/-- CMPSB compares the source byte with the destination byte (R603). -/
theorem Runs.cmpsbElement {s s' : State} (hr : Ready s') (hv : view s' = view s) :
    Runs cmpsbElement s' fun _ t => ∃ a b, (view s).Holds8 (segValue s .ds) s.cpu.si a ∧
      (view s).Holds8 s.cpu.es s.cpu.di b ∧
      view t = ((view s).setFlags fun f => (subAlu a b false f).flags).setCpu (advanceBoth 1) := by
  unfold Machine.cmpsbElement
  rw [advanceSi_advanceDi]
  exact (Runs.sourceByte hr hv).bind fun a _ ht ⟨ha, hvt⟩ =>
    (Runs.compareWith (Runs.destByte ht hvt)).imp fun _ _ ⟨b, hb, h⟩ => ⟨a, b, ha, hb, h⟩

/-- CMPSW (R603). -/
theorem Runs.cmpswElement {s s' : State} (hr : Ready s') (hv : view s' = view s) :
    Runs cmpswElement s' fun _ t => ∃ a b, (view s).Holds16 (segValue s .ds) s.cpu.si a ∧
      (view s).Holds16 s.cpu.es s.cpu.di b ∧
      view t = ((view s).setFlags fun f => (subAlu a b false f).flags).setCpu (advanceBoth 2) := by
  unfold Machine.cmpswElement
  rw [advanceSi_advanceDi]
  exact (Runs.sourceWord hr hv).bind fun a _ ht ⟨ha, hvt⟩ =>
    (Runs.compareWith (Runs.destWord ht hvt)).imp fun _ _ ⟨b, hb, h⟩ => ⟨a, b, ha, hb, h⟩

/-- SCASB compares AL with the destination byte (R604). -/
theorem Runs.scasbElement {s s' : State} (hr : Ready s') (hv : view s' = view s) :
    Runs scasbElement s' fun _ t => ∃ b, (view s).Holds8 s.cpu.es s.cpu.di b ∧
      view t = ((view s).setFlags fun f => (subAlu (reg8 s.cpu .al) b false f).flags).setCpu (advanceDest 1) := by
  unfold Machine.scasbElement
  rw [advanceDi_eq]
  refine (Runs.destByte hr hv).bind fun b t ht ⟨hb, hvt⟩ => Runs.readS_bind ?_
  rw [view_cpu_eq hvt]
  exact (Runs.compareFlags_modifyCpu ht hvt).imp fun _ _ h => ⟨b, hb, h⟩

/-- SCASW compares AX with the destination word (R604). -/
theorem Runs.scaswElement {s s' : State} (hr : Ready s') (hv : view s' = view s) :
    Runs scaswElement s' fun _ t => ∃ w, (view s).Holds16 s.cpu.es s.cpu.di w ∧
      view t = ((view s).setFlags fun f => (subAlu s.cpu.ax w false f).flags).setCpu (advanceDest 2) := by
  unfold Machine.scaswElement
  rw [advanceDi_eq]
  refine (Runs.destWord hr hv).bind fun w t ht ⟨hw, hvt⟩ => Runs.readS_bind ?_
  rw [view_cpu_eq hvt]
  exact (Runs.compareFlags_modifyCpu ht hvt).imp fun _ _ h => ⟨w, hw, h⟩

/-- Settles O36: with CX = 0 the loop is empty; without repetition the instruction is its element. -/
theorem stringElements : Obligations.StringElements := by
  refine fun s hr => ⟨fun i => completes_string_of_cx_zero hr, fun hrep => ⟨?movsb, ?movsw, ?stosb, ?stosw, ?cmpsb,
    ?cmpsw, ?scasb, ?scasw, ?lodsb, ?lodsw⟩⟩
  case movsb =>
    exact completes_of_take (movsbElement_eq ▸ complete_repString_once hrep) hr (fun _ => Runs.sourceByte)
      (fun _ _ ht hv => Runs.bind_modifyCpu (Runs.storeDestByte ht hv)) fun _ _ => write8_kept (p := .mem _ _)
  case movsw =>
    exact completes_of_take (movswElement_eq ▸ complete_repString_once hrep) hr (fun _ => Runs.sourceWord)
      (fun _ _ ht hv => Runs.bind_modifyCpu (Runs.storeDestWord ht hv)) fun _ _ => write16_kept (p := .mem _ _)
  case stosb =>
    exact completes_of_view (complete_repString_once hrep) hr (fun _ => Runs.stosbElement)
      fun _ => write8_kept (p := .mem _ _)
  case stosw =>
    exact completes_of_view (complete_repString_once hrep) hr (fun _ => Runs.stoswElement)
      fun _ => write16_kept (p := .mem _ _)
  case cmpsb =>
    obtain ⟨_, ⟨a, b, ha, hb, hv⟩, hfin⟩ := finishes_of (i := .cmpsb) (complete_repString_once hrep) hr
      fun _ => Runs.cmpsbElement
    exact ⟨a, b, ha, hb, hfin.completes hv fun _ _ => rfl⟩
  case cmpsw =>
    obtain ⟨_, ⟨a, b, ha, hb, hv⟩, hfin⟩ := finishes_of (i := .cmpsw) (complete_repString_once hrep) hr
      fun _ => Runs.cmpswElement
    exact ⟨a, b, ha, hb, hfin.completes hv fun _ _ => rfl⟩
  case scasb =>
    obtain ⟨_, ⟨b, hb, hv⟩, hfin⟩ := finishes_of (i := .scasb) (complete_repString_once hrep) hr
      fun _ => Runs.scasbElement
    exact ⟨b, hb, hfin.completes hv fun _ _ => rfl⟩
  case scasw =>
    obtain ⟨_, ⟨w, hw, hv⟩, hfin⟩ := finishes_of (i := .scasw) (complete_repString_once hrep) hr
      fun _ => Runs.scaswElement
    exact ⟨w, hw, hfin.completes hv fun _ _ => rfl⟩
  case lodsb =>
    exact completes_of_take (lodsbElement_eq ▸ complete_repString_once hrep) hr (fun _ => Runs.sourceByte)
      (fun _ _ ht hv => Runs.bind_modifyCpu (hv ▸ Runs.writePlace8 (p := .reg .al) ht)) fun _ _ _ => rfl
  case lodsw =>
    exact completes_of_take (lodswElement_eq ▸ complete_repString_once hrep) hr (fun _ => Runs.sourceWord)
      (fun _ _ ht hv => Runs.bind_modifyCpu (hv ▸ Runs.writePlace16 (p := .reg .ax) ht)) fun _ _ _ => rfl

end Sys2Proof.Machine
end

section
/-! PROOFS. The repeated STOSB (43_string.md R600, R601, R606, R607): its loop as so many stores on the view, while no
interrupt can become pending, and what those stores leave. -/

namespace Sys2Proof.Machine

/-! ### The stores on the view -/

/-- DI after `k` elements of STOSB (R600). -/
def diAfter (c : Cpu) (k : Nat) : Word :=
  if c.flags.df then c.di - BitVec.ofNat 16 k else c.di + BitVec.ofNat 16 k

/-- Where the byte of the element after them goes (R600). -/
def destAt (c : Cpu) (k : Nat) : Nat := phys c.es (diAfter c k)

/-- DI and CX after an element of a repeated byte store (R600, R601). -/
def storeStep (c : Cpu) : Cpu := { Claims.advanceDest 1 c with cx := c.cx - 1 }

/-- The view after `n` elements of a repeated STOSB. -/
def View.storeBytes : Nat → View → View
  | 0, v => v
  | n + 1, v => storeBytes n ((v.store8 v.cpu.es v.cpu.di (reg8 v.cpu .al)).setCpu storeStep)

theorem diAfter_zero (c : Cpu) : diAfter c 0 = c.di := by
  simp [diAfter]

theorem diAfter_storeStep (c : Cpu) (k : Nat) : diAfter (storeStep c) k = diAfter c (k + 1) := by
  unfold diAfter storeStep Claims.advanceDest
  cases c.flags.df with
  | false => simp only [Bool.false_eq_true, if_false]; bv_omega
  | true => simp only [if_true]; bv_omega

theorem destAt_zero (c : Cpu) : destAt c 0 = phys c.es c.di := congrArg (phys c.es) (diAfter_zero c)

theorem destAt_storeStep (c : Cpu) (k : Nat) : destAt (storeStep c) k = destAt c (k + 1) :=
  congrArg (phys c.es) (diAfter_storeStep c k)

/-- A store to an address of RAM leaves its byte there (R123). -/
theorem memRead_store8_self {v : View} {seg off : Word} {b : Byte} (hm : memWf v.mem = true)
    (hram : InRam v.params (phys seg off)) : memRead (v.store8 seg off b).mem (phys seg off) = b := by
  unfold InRam at hram
  simp only [View.store8, hram]
  exact memRead_self hm

theorem memWf_store8 {v : View} (hm : memWf v.mem = true) (seg off : Word) (b : Byte) :
    memWf (v.store8 seg off b).mem = true := by
  unfold View.store8
  split
  · exact memWf_memWrite hm
  · exact hm
  · exact hm
  · exact hm

theorem storeBytes_cpu (n : Nat) (v : View) : (v.storeBytes n).cpu =
    { v.cpu with cx := v.cpu.cx - BitVec.ofNat 16 n, di := diAfter v.cpu n } := by
  induction n generalizing v with
  | zero => simp [View.storeBytes, diAfter_zero]
  | succ n ih =>
    have hcx : v.cpu.cx - 1 - BitVec.ofNat 16 n = v.cpu.cx - BitVec.ofNat 16 (n + 1) := by bv_omega
    rw [View.storeBytes, ih, setCpu_cpu, store8_cpu, diAfter_storeStep, ← hcx]
    rfl

/-- The stores leave all but CX, DI and memory as it is. -/
theorem storeBytes_kept (n : Nat) (v : View) : (v.storeBytes n).eu = v.eu ∧ (v.storeBytes n).ports = v.ports ∧
    (v.storeBytes n).pics = v.pics ∧ (v.storeBytes n).params = v.params := by
  induction n generalizing v with
  | zero => exact ⟨rfl, rfl, rfl, rfl⟩
  | succ n ih =>
    obtain ⟨heu, hports, hpics, hparams⟩ := ih ((v.store8 v.cpu.es v.cpu.di (reg8 v.cpu .al)).setCpu storeStep)
    exact ⟨heu.trans (store8_eu _ _ _ _), hports.trans (store8_ports _ _ _ _), hpics.trans (store8_pics _ _ _ _),
      hparams.trans (store8_params _ _ _ _)⟩

theorem memRead_storeBytes_other {n : Nat} {v : View} {a : Nat} (h : ∀ k, k < n → a ≠ destAt v.cpu k) :
    memRead (v.storeBytes n).mem a = memRead v.mem a := by
  induction n generalizing v with
  | zero => rfl
  | succ n ih =>
    have hfirst : a ≠ phys v.cpu.es v.cpu.di := destAt_zero v.cpu ▸ h 0 n.succ_pos
    rw [View.storeBytes, ih, setCpu_mem, store8_kept hfirst]
    intro k hk
    rw [setCpu_cpu, store8_cpu, destAt_storeStep]
    exact h (k + 1) (Nat.succ_lt_succ hk)

/-- A byte of RAM that the stores pass over holds AL after them, and one that holds AL keeps it: every store is of
AL. -/
theorem memRead_storeBytes_ram {n : Nat} {v : View} {a : Nat} (hm : memWf v.mem = true) (hram : InRam v.params a)
    (h : memRead v.mem a = reg8 v.cpu .al ∨ ∃ k, k < n ∧ a = destAt v.cpu k) :
    memRead (v.storeBytes n).mem a = reg8 v.cpu .al := by
  induction n generalizing v with
  | zero => exact h.resolve_right fun ⟨_, hk, _⟩ => absurd hk (Nat.not_lt_zero _)
  | succ n ih =>
    let v' := (v.store8 v.cpu.es v.cpu.di (reg8 v.cpu .al)).setCpu storeStep
    have hcpu : v'.cpu = storeStep v.cpu := congrArg storeStep (store8_cpu _ _ _ _)
    have hal : reg8 v'.cpu .al = reg8 v.cpu .al := by rw [hcpu]; rfl
    show memRead (v'.storeBytes n).mem a = _
    rw [← hal]
    refine ih (memWf_store8 hm _ _ _) (by simpa [v'] using hram) ?_
    rw [hal, hcpu]
    simp only [destAt_storeStep]
    by_cases ha : a = phys v.cpu.es v.cpu.di
    · subst ha
      exact .inl (memRead_store8_self hm hram)
    · refine h.imp (store8_kept ha).trans ?_
      rintro ⟨_ | k, hk, hak⟩
      · exact absurd (hak.trans (destAt_zero _)) ha
      · exact ⟨k, Nat.lt_of_succ_lt_succ hk, hak⟩

/-! ### The loop -/

/-- A store to memory leaves no NMI pending while none can come. -/
theorem memWrite8_nmiQuiet {seg off : Word} {b : Byte} {s t : State} {u : Unit} (hr : Ready s) (hq : NmiQuiet s)
    (h : memWrite8 seg off b s = .ok u t) : NmiQuiet t := by
  simp only [memWrite8, bind, EStateM.bind] at h
  split at h
  · rename_i hbus
    cases h
    exact busAccess_nmiQuiet ⟨by simp, by simp⟩ hr hq hbus
  · cases h

theorem stosbElement_nmiQuiet {s t : State} {u : Unit} (hr : Ready s) (hq : NmiQuiet s)
    (h : stosbElement s = .ok u t) : NmiQuiet t := by
  have hstore : EStateM.bind (memWrite8 s.cpu.es s.cpu.di (reg8 s.cpu .al)) (fun _ => advanceDi 1) s = .ok u t := h
  unfold EStateM.bind at hstore
  split at hstore
  · rename_i hwrite
    cases hstore
    exact (memWrite8_nmiQuiet hr hq hwrite :)
  · cases hstore

theorem compareStops_false (r : Rep) (zf : Bool) : compareStops false r zf = false := by
  cases r <;> rfl

theorem interruptPending_unsignalled {s : State} (h : Unsignalled s) : interruptPending s = false := by
  obtain ⟨⟨hnmi, -, -⟩, hif⟩ := h
  simp [interruptPending, hnmi, hif]

/-- An element has been done: CX goes down by 1 (R601). -/
def countDown (s : State) : State := { s with cpu := { s.cpu with cx := s.cpu.cx - 1 } }

/-- Where no interrupt is pending after an element that does not compare, the loop goes on to its count: CX is 0 then
only if the count is (R601). -/
theorem Runs.repLoop_succ {element : EU Unit} {n : Nat} {s : State} {Q : Unit → State → Prop}
    (h : Runs element s fun _ t => interruptPending (countDown t) = false ∧ (countDown t).cpu.cx.toNat = n ∧
      Runs (Machine.repLoop element false n) (countDown t) Q) :
    Runs (Machine.repLoop element false (n + 1)) s Q := by
  refine Runs.bind h fun _ t _ ⟨hpending, hcount, hrest⟩ => Runs.modifyCpu_bind (Runs.readS_bind ?_)
  change Runs (if compareStops false t.eu.rep t.cpu.flags.zf || (countDown t).cpu.cx == 0 then _
    else if interruptPending (countDown t) then _ else _) (countDown t) Q
  rw [compareStops_false, hpending, Bool.false_or]
  by_cases hcx : (countDown t).cpu.cx = 0
  · have hn : n = 0 := by rw [← hcount, hcx]; rfl
    subst hn
    rw [if_pos (beq_iff_eq.mpr hcx)]
    exact hrest
  · rw [if_neg (mt beq_iff_eq.mp hcx)]
    exact hrest

/-- While no interrupt can become pending the loop over CX elements does them all (R601). -/
theorem Runs.repLoop_stosb {n : Nat} {s : State} (hr : Ready s) (hu : Unsignalled s) (hn : s.cpu.cx.toNat = n) :
    Runs (Machine.repLoop Machine.stosbElement false n) s fun _ t => view t = (view s).storeBytes n := by
  induction n generalizing s with
  | zero => exact Runs.pure hr rfl
  | succ n ih =>
    obtain ⟨u, t, he, ht, hv⟩ := Runs.stosbElement hr rfl
    have hview : view (countDown t) = ((view s).store8 s.cpu.es s.cpu.di (reg8 s.cpu .al)).setCpu storeStep :=
      congrArg (View.setCpu fun c => { c with cx := c.cx - 1 }) hv
    have hcpu : (countDown t).cpu = storeStep s.cpu := (congrArg View.cpu hview).trans (by simp)
    have hquiet : NmiQuiet t := stosbElement_nmiQuiet hr hu.1 he
    have hut : Unsignalled (countDown t) := ⟨hquiet, by rw [hcpu]; exact hu.2⟩
    have hcount : (countDown t).cpu.cx.toNat = n := by
      rw [hcpu]
      show (s.cpu.cx - 1).toNat = n
      bv_omega
    exact Runs.repLoop_succ ⟨u, t, he, ht, interruptPending_unsignalled hut, hcount,
      (ih (s := countDown t) ht hut hcount).imp fun _ _ h => h.trans (congrArg (View.storeBytes n) hview)⟩

/-- What the body does may rest on more of the state than the view: the LOCK output is all that differs (R162). -/
theorem finishes_of_lockOut {i : Instr} {body : EU Unit} {s : State} {P : State → Prop}
    (hi : exec i s = complete body s) (hr : Ready s)
    (hb : ∀ l, Runs body { s with biu := { s.biu with lockOut := l } } fun _ t => P t) :
    ∃ t0, P t0 ∧ Finishes i s t0 :=
  finishes_of (body := fun u => body { s with biu := { s.biu with lockOut := u.biu.lockOut } })
    (hi.trans (complete_congr fun _ => rfl)) hr fun s' _ _ => hb s'.biu.lockOut

/-- Settles O37: the instruction is CX stores on the view, and these leave what the statement says. -/
theorem repeatedStore : Obligations.RepeatedStore := by
  intro s hr hu hm hrep
  obtain ⟨t0, hv0, t, he, ht, hview, hbiu⟩ := finishes_of_lockOut (i := .stosb)
    (P := fun t => view t = (view s).storeBytes s.cpu.cx.toNat) (complete_repString_loop hrep) hr fun l =>
      Runs.repLoop_stosb (s := { s with biu := { s.biu with lockOut := l } }) hr hu rfl
  have hv : view t = ((view s).storeBytes s.cpu.cx.toNat).done := hview.trans (congrArg View.done hv0)
  obtain ⟨heu, hports, hpics, hparams⟩ := storeBytes_kept s.cpu.cx.toNat (view s)
  have hcpu := storeBytes_cpu s.cpu.cx.toNat (view s)
  have hmem : t.mem = ((view s).storeBytes s.cpu.cx.toNat).mem := congrArg View.mem hv
  refine ⟨t, he, ht, by rw [hbiu], ?cpu, ?eu, (congrArg View.ports hv).trans hports,
    (congrArg View.pics hv).trans hpics, (congrArg View.params hv).trans hparams, fun k hk hram => ?ram,
    fun a ha => ?other⟩
  case cpu =>
    have hc : t.cpu = _ := (congrArg View.cpu hv).trans hcpu
    simpa [diAfter] using hc
  case eu =>
    have hd : t.eu = _ := congrArg View.eu hv
    simpa [View.done, hcpu, heu] using hd
  case ram =>
    rw [hmem]
    exact memRead_storeBytes_ram hm hram (.inr ⟨k, hk, rfl⟩)
  case other =>
    rw [hmem]
    exact memRead_storeBytes_other ha

end Sys2Proof.Machine
end

section
/-! PROOFS. The control transfer instructions (44_control_transfer.md R650 to R683): work that ends with a jump, then
the branches, the jumps, the calls and the returns. -/

namespace Sys2Proof.Machine

open Sys2Proof.Claims

/-! ### Work that jumps -/

/-- Work has ended in `t` with the view `v` and a flushed queue: it has jumped (R14, R151). -/
def Lands (v : View) (t : State) : Prop := view t = v ∧ Flushed t.biu

theorem Runs.jump_lands {off : Word} {s : State} {v : View} (hr : Ready s) (hv : view s = v) :
    Runs (Machine.jump off) s fun _ => Lands (v.setIp off) := hv ▸ Runs.jump hr

theorem Runs.jumpFar_lands {seg off : Word} {s : State} {v : View} (hr : Ready s) (hv : view s = v) :
    Runs (Machine.jumpFar seg off) s fun _ => Lands (v.jumpFar seg off) := hv ▸ Runs.jumpFar hr

/-- An instruction whose body jumps and leaves the view `f x`, for some `x` with `R x`. -/
theorem jumps_of_lands {α : Type} {i : Instr} {body : EU Unit} {s : State} {R : α → Prop} {f : α → View}
    {addrs : List Nat} (hi : exec i s = complete body s) (hr : Ready s)
    (hb : ∀ s', Ready s' → view s' = view s → Runs body s' fun _ t => ∃ x, R x ∧ Lands (f x) t)
    (hmem : ∀ x a, a ∉ addrs → memRead (f x).mem a = memRead s.mem a) :
    ∃ x, R x ∧ Jumps i s (f x).done addrs := by
  obtain ⟨_, ⟨x, hx, rfl⟩, h⟩ := jumps_of (Q := fun v => ∃ x, R x ∧ v = f x) hi hr
    (fun s' h1 h2 => (hb s' h1 h2).imp fun _ _ ⟨x, hx, hv, hq⟩ => ⟨⟨x, hx, hv⟩, hq⟩)
    (by rintro _ ⟨x, -, rfl⟩; exact hmem x)
  exact ⟨x, hx, h⟩

/-- An instruction whose body jumps and leaves the view `v`. -/
theorem jumps_of_view {i : Instr} {body : EU Unit} {s : State} {v : View} {addrs : List Nat}
    (hi : exec i s = complete body s) (hr : Ready s)
    (hb : ∀ s', Ready s' → view s' = view s → Runs body s' fun _ => Lands v)
    (hmem : ∀ a, a ∉ addrs → memRead v.mem a = memRead s.mem a) : Jumps i s v.done addrs := by
  obtain ⟨-, -, h⟩ := jumps_of_lands (R := fun _ : Unit => True) (f := fun _ => v) hi hr
    (fun s' h1 h2 => (hb s' h1 h2).imp fun _ _ h => ⟨(), trivial, h⟩) fun _ => hmem
  exact h

/-- An instruction that takes a value `x` with `R x`, which changes nothing, and then jumps and leaves the view
`f x`. -/
theorem jumps_of_take {α : Type} {i : Instr} {m : EU α} {k : α → EU Unit} {s : State} {R : α → Prop} {f : α → View}
    {addrs : List Nat} (hi : exec i s = complete (m >>= k) s) (hr : Ready s)
    (hm : ∀ s', Ready s' → view s' = view s → Runs m s' fun x t => R x ∧ view t = view s)
    (hk : ∀ x t, Ready t → view t = view s → Runs (k x) t fun _ => Lands (f x))
    (hmem : ∀ x a, a ∉ addrs → memRead (f x).mem a = memRead s.mem a) : ∃ x, R x ∧ Jumps i s (f x).done addrs :=
  jumps_of_lands hi hr (fun s' h1 h2 => (hm s' h1 h2).bind fun x t ht ⟨hx, hv⟩ =>
    (hk x t ht hv).imp fun _ _ h => ⟨x, hx, h⟩) hmem

/-- An instruction that takes a far pointer from memory and then jumps (R232). -/
theorem jumps_throughPointer {i : Instr} {s : State} {m : MemOp} {k : Word × Word → EU Unit} {f : Word → Word → View}
    {addrs : List Nat}
    (hi : exec i s = complete (readFarPointer (segValue s (defaultSeg m)) (effAddr s.cpu m) >>= k) s) (hr : Ready s)
    (hk : ∀ x t, Ready t → view t = view s → Runs (k x) t fun _ => Lands (f x.1 x.2))
    (hmem : ∀ off sel a, a ∉ addrs → memRead (f off sel).mem a = memRead s.mem a) :
    ∃ off sel, (view s).Holds16 (segValue s (defaultSeg m)) (effAddr s.cpu m) off ∧
      (view s).Holds16 (segValue s (defaultSeg m)) (effAddr s.cpu m + 2) sel ∧ Jumps i s (f off sel).done addrs := by
  obtain ⟨x, ⟨hoff, hsel⟩, hj⟩ := jumps_of_take
    (R := fun x => (view s).Holds16 (segValue s (defaultSeg m)) (effAddr s.cpu m) x.1 ∧
      (view s).Holds16 (segValue s (defaultSeg m)) (effAddr s.cpu m + 2) x.2) hi hr
    (fun _ hr' hv => hv ▸ (Runs.readFarPointer hr').imp fun _ _ ⟨hoff, hsel, ht⟩ => ⟨⟨hoff, hsel⟩, ht⟩) hk
    fun x => hmem x.1 x.2
  exact ⟨x.1, x.2, hoff, hsel, hj⟩

/-! ### Branches -/

theorem branchIf_apply (cond : Cpu → Bool) (d : Byte) (s : State) : branchIf cond d s =
    if cond s.cpu then jump (s.cpu.ip + d.signExtend 16) s else .ok () s := by
  show (if cond s.cpu then jumpRelative (sext16 d) else pure ()) s = _
  split <;> rfl

/-- An instruction that only changes the register file keeps the queue. -/
theorem queue_kept_of_modifyCpu {i : Instr} {f : Cpu → Cpu} {s t : State} (hi : exec i s = complete (modifyCpu f) s)
    (hr : Ready s) (ht : exec i s = .next t) : t.biu.queue = s.biu.queue := by
  obtain ⟨t0, u, hu, hqueue, -, -, hbiu⟩ := complete_runs (P := fun t => t.biu.queue = s.biu.queue) hr
    fun _ hr' _ hq => Runs.modifyCpu hr' hq
  cases (hi.trans hu).symm.trans ht
  rw [hbiu]
  exact hqueue

/-- A change of the register file that keeps IP, then a branch (R231, R665, R670): when the condition holds
afterwards the jump is taken; else only the change is left, and the queue is kept (R150). -/
theorem branch_cases {i : Instr} {f : Cpu → Cpu} {cond : Cpu → Bool} {d : Byte} {s : State} {P : Prop}
    (hi : exec i s = complete (do modifyCpu f; branchIf cond d) s) (hr : Ready s) (hip : (f s.cpu).ip = s.cpu.ip)
    (hcond : cond (f s.cpu) = true ↔ P) :
    (P → Jumps i s (((view s).setCpu f).setIp (s.cpu.ip + d.signExtend 16)).done []) ∧
    (¬ P → Completes i s ((view s).setCpu f).done [] ∧ ∀ t, exec i s = .next t → t.biu.queue = s.biu.queue) := by
  rw [← hcond]
  constructor
  · intro htaken
    have hi' : exec i s = complete (do modifyCpu f; jump (s.cpu.ip + d.signExtend 16)) s :=
      hi.trans (complete_congr fun _ => (branchIf_apply cond d _).trans (by rw [if_pos htaken, hip]; rfl))
    exact jumps_of_view hi' hr (fun _ hr' hv => Runs.modifyCpu_bind
      (Runs.jump_lands hr' (congrArg (View.setCpu f) hv))) fun _ _ => rfl
  · intro hnot
    have hi' : exec i s = complete (modifyCpu f) s :=
      hi.trans (complete_congr fun _ => (branchIf_apply cond d _).trans (if_neg hnot))
    exact ⟨completes_modifyCpu hi' hr, fun _ => queue_kept_of_modifyCpu hi' hr⟩

/-- The condition of R664 as the instruction tests it. -/
theorem condHolds_iff (cc : Cond) (f : Flags) : condHolds cc f = true ↔ taken cc f := by
  cases cc <;> simp [condHolds, taken]

/-- Every conditional jump branches on its condition (R665). -/
theorem exec_conditional {s : State} {i : Instr} {cc : Cond} {d : Byte} (h : conditional i = some (cc, d))
    (ha : admitted s.params i) :
    exec i s = complete (do modifyCpu id; branchIf (fun c => condHolds cc c.flags) d) s := by
  cases i with
  | jo | jno | jb | jnb | jz | jnz | jbe | ja | js | jns | jp | jnp | jl | jge | jle | jg =>
    cases h
    exact complete_congr fun _ => rfl
  | joAlias | jnoAlias | jbAlias | jnbAlias | jzAlias | jnzAlias | jbeAlias | jaAlias | jsAlias | jnsAlias | jpAlias
    | jnpAlias | jlAlias | jgeAlias | jleAlias | jgAlias =>
    cases h
    exact (ifAdmitted_of_admitted ha rfl).trans (complete_congr fun _ => rfl)
  | _ => cases h

/-- Settles O38: a branch that changes no register. -/
theorem conditionalJumps : Obligations.ConditionalJumps := by
  intro s i cc d h ha hr
  exact branch_cases (exec_conditional h ha) hr rfl (condHolds_iff cc s.cpu.flags)

/-- Every loop instruction counts CX down and branches, testing its condition on the flags (R670 to R672). -/
theorem exec_looping {i : Instr} {cond : Flags → Prop} {d : Byte} (h : looping i = some (cond, d)) (s : State) :
    ∃ test : Flags → Bool, (∀ f, test f = true ↔ cond f) ∧ exec i s = complete (loopWhile test d) s := by
  cases i with
  | loop =>
    cases h
    exact ⟨fun _ => true, fun _ => ⟨fun _ => trivial, fun _ => rfl⟩, rfl⟩
  | loope =>
    cases h
    exact ⟨fun f => f.zf, fun _ => Iff.rfl, rfl⟩
  | loopne =>
    cases h
    exact ⟨fun f => !f.zf, fun f => by rw [Bool.not_eq_true'], rfl⟩
  | _ => cases h

/-- CX counts down to 0 exactly from 1. -/
theorem countDown_ne_zero_iff (cx : Word) : (cx - 1 != 0) = true ↔ cx ≠ 1 := by
  rw [bne_iff_ne, ne_eq, sub_eq_zero]

/-- JCXZ branches on CX = 0 (R673). -/
theorem exec_jcxz (s : State) (d : Byte) :
    exec (.jcxz d) s = complete (do modifyCpu id; branchIf (fun c => c.cx == 0) d) s := complete_congr fun _ => rfl

/-- Settles O39: the loops are branches after the count, JCXZ one that changes no register. -/
theorem loops : Obligations.Loops := by
  intro s d hr
  refine ⟨fun i cond h => ?_, branch_cases (exec_jcxz s d) hr rfl beq_iff_eq⟩
  obtain ⟨test, htest, hi⟩ := exec_looping h s
  have hcond : (s.cpu.cx - 1 != 0 && test s.cpu.flags) = true ↔ s.cpu.cx ≠ 1 ∧ cond s.cpu.flags := by
    rw [Bool.and_eq_true, countDown_ne_zero_iff, htest]
  exact branch_cases hi hr rfl hcond

/-! ### Jumps -/

/-- Settles O40: a direct jump goes to what the instruction holds; an indirect one first takes its target. -/
theorem unconditionalJumps : Obligations.UnconditionalJumps := by
  refine fun s hr => ⟨fun d => ?short, fun d => ?near, fun e => ?nearIndirect, fun off sel => ?far,
    fun m => ?farIndirect⟩
  case short =>
    have hi : exec (.jmpJb d) s = complete (jump (s.cpu.ip + d.signExtend 16)) s := complete_congr fun _ => rfl
    exact jumps_of_view hi hr (fun _ => Runs.jump_lands) fun _ _ => rfl
  case near =>
    have hi : exec (.jmpJw d) s = complete (jump (s.cpu.ip + d)) s := complete_congr fun _ => rfl
    exact jumps_of_view hi hr (fun _ => Runs.jump_lands) fun _ _ => rfl
  case nearIndirect =>
    have hi : exec (.jmpEw e) s = complete (readPlace16 (place s e) >>= jump) s := complete_congr fun _ => rfl
    exact jumps_of_take hi hr (fun _ hr' hv => hv ▸ Runs.readPlace16 hr') (fun _ _ => Runs.jump_lands)
      fun _ _ _ => rfl
  case far =>
    exact jumps_of_view rfl hr (fun _ => Runs.jumpFar_lands) fun _ _ => rfl
  case farIndirect =>
    exact jumps_throughPointer (k := fun x => jumpFar x.2 x.1) (complete_congr fun _ => rfl) hr
      (fun _ _ => Runs.jumpFar_lands) fun _ _ _ _ => rfl

/-! ### Calls -/

/-- The work of a near call once its target is known (R655, R656). -/
def callNear (off : Word) : EU Unit := do
  let c ← readS State.cpu
  push c.ip
  jump off

theorem Runs.callNear {off : Word} {s : State} {v : View} (hr : Ready s) (hv : view s = v) :
    Runs (callNear off) s fun _ => Lands ((v.push v.cpu.ip).setIp off) := by
  subst hv
  exact Runs.readS_bind ((Runs.push hr).bind fun _ _ => Runs.jump_lands)

theorem Runs.callFar {off sel : Word} {s : State} {v : View} (hr : Ready s) (hv : view s = v) :
    Runs (callFar off sel) s fun _ => Lands (((v.push v.cpu.cs).push v.cpu.ip).jumpFar sel off) := by
  subst hv
  exact Runs.readS_bind ((Runs.push hr).bind fun _ _ ht hv =>
    (Runs.push ht).bind fun _ _ hu hw => Runs.jumpFar_lands hu (hv ▸ hw))

/-- Two pushes keep every byte outside the two words. -/
theorem push_push_kept {v : View} {w w' : Word} {a : Nat}
    (h : a ∉ pushedAt v.cpu.ss v.cpu.sp ++ pushedAt v.cpu.ss (v.cpu.sp - 2)) :
    memRead ((v.push w).push w').mem a = memRead v.mem a := by
  rw [List.mem_append, not_or] at h
  rw [push_kept (by simpa using h.2), push_kept h.1]

/-- Settles O41: a call is the push of the return address and the jump; an indirect one first takes its target. -/
theorem calls : Obligations.Calls := by
  refine fun s hr => ⟨fun d => ?near, fun e => ?nearIndirect, fun off sel => ?far, fun m => ?farIndirect⟩
  case near =>
    have hi : exec (.callJw d) s = complete (callNear (s.cpu.ip + d)) s := complete_congr fun _ => rfl
    exact jumps_of_view hi hr (fun _ => Runs.callNear) fun _ => push_kept (v := view s)
  case nearIndirect =>
    have hi : exec (.callEw e) s = complete (readPlace16 (place s e) >>= callNear) s := complete_congr fun _ => rfl
    exact jumps_of_take hi hr (fun _ hr' hv => hv ▸ Runs.readPlace16 hr') (fun _ _ => Runs.callNear)
      fun _ _ => push_kept (v := view s)
  case far =>
    exact jumps_of_view rfl hr (fun _ => Runs.callFar) fun _ => push_push_kept (v := view s)
  case farIndirect =>
    exact jumps_throughPointer (k := fun x => callFar x.1 x.2) (complete_congr fun _ => rfl) hr
      (fun _ _ => Runs.callFar) fun _ _ _ => push_push_kept (v := view s)

/-! ### Returns -/

theorem addSp_zero (v : View) : v.addSp 0 = v := by simp [View.addSp, View.setCpu]

theorem addSp_addSp (v : View) (m n : Word) : (v.addSp m).addSp n = v.addSp (m + n) := by
  simp [View.addSp, View.setCpu, BitVec.add_assoc]

/-- A pop after `n` bytes of the stack have been taken. -/
theorem Runs.pop_deeper {n : Word} {s : State} {v : View} (hr : Ready s) (hv : view s = v.addSp n) :
    Runs Machine.pop s fun w t => (v.addSp n).Top w ∧ view t = v.addSp (n + 2) := by
  rw [← addSp_addSp, ← hv]
  exact Runs.pop hr

/-- Two pops, of an offset and a segment, before the rest of a far return. -/
theorem Runs.pop_pop_bind {k : Word → Word → EU Unit} {s : State} {v : View} {Q : Unit → State → Prop} (hr : Ready s)
    (hv : view s = v) (hk : ∀ off sel t, v.Top off → (v.addSp 2).Top sel → Ready t → view t = v.addSp 4 →
      Runs (k off sel) t Q) : Runs (do let off ← Machine.pop; let sel ← Machine.pop; k off sel) s Q := by
  subst hv
  exact (Runs.pop hr).bind fun off _ ht ⟨hoff, hvt⟩ => (Runs.pop_deeper ht hvt).bind fun sel u hu ⟨hsel, hvu⟩ =>
    hk off sel u hoff hsel hu hvu

theorem Runs.retIwOp {n : Word} {s : State} {v : View} (hr : Ready s) (hv : view s = v) :
    Runs (retIwOp n) s fun _ t => ∃ off, v.Top off ∧ Lands ((v.addSp (2 + n)).setIp off) t := by
  subst hv
  refine (Runs.pop hr).bind fun off t ht ⟨hoff, hvt⟩ => Runs.modifyCpu_bind ?_
  let t' : State := { t with cpu := { t.cpu with sp := t.cpu.sp + n } }
  have hv' : view t' = (view s).addSp (2 + n) := by
    rw [← addSp_addSp, ← hvt]
    rfl
  exact (Runs.jump_lands (s := t') ht hv').imp fun _ _ h => ⟨off, hoff, h⟩

/-- The bytes are released after the jump, which leaves SP alone (R663). -/
theorem Runs.retfIwOp {n : Word} {s : State} {v : View} (hr : Ready s) (hv : view s = v) :
    Runs (retfIwOp n) s fun _ t => ∃ x : Word × Word, (v.Top x.1 ∧ (v.addSp 2).Top x.2) ∧
      Lands ((v.addSp (4 + n)).jumpFar x.2 x.1) t := by
  refine Runs.pop_pop_bind hr hv fun off sel t hoff hsel ht hvt =>
    (Runs.jumpFar_lands ht hvt).bind fun _ u hu ⟨hvu, hq⟩ => Runs.modifyCpu hu ⟨(off, sel), ⟨hoff, hsel⟩, ?_, hq⟩
  rw [← addSp_addSp]
  exact congrArg (View.addSp · n) hvu

theorem exec_nearReturn {s : State} {i : Instr} {n : Word} (h : nearReturn i = some n) (ha : admitted s.params i) :
    exec i s = complete (retIwOp n) s := by
  cases i with
  | ret | retIw =>
    cases h
    rfl
  | retAlias | retIwAlias =>
    cases h
    exact ifAdmitted_of_admitted ha rfl
  | _ => cases h

theorem exec_farReturn {s : State} {i : Instr} {n : Word} (h : farReturn i = some n) (ha : admitted s.params i) :
    exec i s = complete (retfIwOp n) s := by
  cases i with
  | retf | retfIw =>
    cases h
    rfl
  | retfAlias | retfIwAlias =>
    cases h
    exact ifAdmitted_of_admitted ha rfl
  | _ => cases h

/-- Settles O42: a return without an operand releases 0 bytes. -/
theorem returns : Obligations.Returns := by
  intro s i n ha hr
  constructor
  · intro h
    exact jumps_of_lands (exec_nearReturn h ha) hr (fun _ => Runs.retIwOp) fun _ _ _ => rfl
  · intro h
    obtain ⟨x, ⟨hoff, hsel⟩, hj⟩ := jumps_of_lands (addrs := []) (exec_farReturn h ha) hr (fun _ => Runs.retfIwOp)
      fun _ _ _ => rfl
    exact ⟨x.1, x.2, hoff, hsel, hj⟩

end Sys2Proof.Machine
end

section
/-! PROOFS. Software interrupts and the return from an interrupt (44_control_transfer.md R680 to R683; 60_exceptions.md
R820, R830), and what the frame that an entry pushes gives back. -/

namespace Sys2Proof.Machine

open Sys2Proof.Claims

/-! ### INT, INT3 and INTO -/

theorem enters_of_enterAtIp {i : Instr} {s : State} {n : Byte} (hi : exec i s = complete (enterAtIp n) s)
    (hr : Ready s) : Enters i s n s.cpu.ip := by
  obtain ⟨t0, hentry, hfin⟩ := finishes_of (P := EndsInEntry s n s.cpu.ip) hi hr fun s' hr' hv => by
    unfold EndsInEntry
    rw [← hv, ← view_cpu_eq hv]
    exact Runs.enterAtIp hr'
  exact hfin.enters hentry

/-- INTO enters vector 4 when OF is 1 and else does nothing (R682). -/
theorem exec_into (s : State) :
    exec .into s = complete (if s.cpu.flags.ovf then enterAtIp 4 else pure ()) s := complete_congr fun _ => rfl

/-- Settles O43: INTO is an entry or nothing, by OF. -/
theorem softwareInterrupts : Obligations.SoftwareInterrupts := by
  refine fun s hr => ⟨fun n => enters_of_enterAtIp rfl hr, enters_of_enterAtIp rfl hr, fun h => ?_, fun h => ?_⟩
  · exact enters_of_enterAtIp ((exec_into s).trans (by rw [if_pos h])) hr
  · exact (completes_pure ((exec_into s).trans (by rw [h]; rfl)) hr).1

/-! ### IRET -/

/-- The words that an IRET pops are `off`, `sel` and `f` (R830). -/
def View.Frame (v : View) (off sel f : Word) : Prop := v.Top off ∧ (v.addSp 2).Top sel ∧ (v.addSp 4).Top f

/-- The view after an IRET that pops `off`, `sel` and `f` (R830). -/
def View.returned (v : View) (off sel f : Word) : View :=
  ((v.addSp 6).jumpFar sel off).setFlags fun _ => setFlagsWord f

theorem Runs.interruptReturn {s : State} {v : View} (hr : Ready s) (hv : view s = v) :
    Runs interruptReturn s fun _ t => ∃ x : Word × Word × Word, v.Frame x.1 x.2.1 x.2.2 ∧
      Lands (v.returned x.1 x.2.1 x.2.2) t := by
  refine Runs.pop_pop_bind hr hv fun off sel t hoff hsel ht hvt => (Runs.pop_deeper ht hvt).bind
    fun f u hu ⟨hf, hvu⟩ => (Runs.jumpFar_lands hu hvu).bind fun _ _ hw ⟨hvw, hq⟩ => Runs.modifyFlags hw ?_
  exact ⟨(off, sel, f), ⟨hoff, hsel, hf⟩, congrArg (View.setFlags fun _ => setFlagsWord f) hvw, hq⟩

/-- Settles O44: three pops, a far jump, and the flags. (`interruptReturn` is the model's operation.) -/
theorem interruptReturn_iret : Obligations.InterruptReturn := by
  intro s hr
  obtain ⟨x, ⟨hoff, hsel, hf⟩, hj⟩ := jumps_of_lands (i := .iret) (addrs := []) rfl hr
    (fun _ => Runs.interruptReturn) fun _ _ _ => rfl
  exact ⟨x.1, x.2.1, x.2.2, hoff, hsel, hf, hj⟩

/-! ### The frame of an interrupt entry -/

/-- Offsets in one segment name different addresses (R121). -/
theorem phys_inj {seg a b : Word} (h : phys seg a = phys seg b) : a = b := by
  unfold phys at h
  bv_omega

/-- A word is its two bytes (R127). -/
theorem word_eq_iff {a b : Word} : a = b ↔ loByte a = loByte b ∧ hiByte a = hiByte b := by
  refine ⟨by rintro rfl; exact ⟨rfl, rfl⟩, fun ⟨hlo, hhi⟩ => ?_⟩
  rw [← joinBytes_hi_lo a, ← joinBytes_hi_lo b, hlo, hhi]

/-- Where RAM stands a read gives the stored byte (R123). -/
theorem holds8_iff {v : View} {seg off : Word} {b : Byte} (h : InRam v.params (phys seg off)) :
    v.Holds8 seg off b ↔ b = memRead v.mem (phys seg off) := ⟨fun hb => hb (.inl h), fun hb _ => hb⟩

/-- A word stored in RAM is read back. -/
theorem holds16_store16_iff {v : View} {seg off w x : Word} (hm : memWf v.mem = true)
    (hlo : InRam v.params (phys seg off)) (hhi : InRam v.params (phys seg (off + 1))) :
    (v.store16 seg off w).Holds16 seg off x ↔ x = w := by
  have hne : phys seg off ≠ phys seg (off + 1) := fun h => absurd (phys_inj h) (by bv_omega)
  have hlow : memRead (v.store16 seg off w).mem (phys seg off) = loByte w :=
    (store8_kept hne).trans (memRead_store8_self hm hlo)
  have hhigh : memRead (v.store16 seg off w).mem (phys seg (off + 1)) = hiByte w :=
    memRead_store8_self (memWf_store8 hm _ _ _) (by simpa using hhi)
  rw [View.Holds16, holds8_iff (by simpa using hlo), holds8_iff (by simpa using hhi), hlow, hhigh, ← word_eq_iff]

theorem memWf_push {v : View} (hm : memWf v.mem = true) (w : Word) : memWf (v.push w).mem = true :=
  memWf_store8 (memWf_store8 (v := v.setCpu _) hm _ _ _) _ _ _

/-- The word just pushed to RAM is on top of the stack. -/
theorem top_push_iff {v : View} {w x : Word} (hm : memWf v.mem = true)
    (hram : ∀ a ∈ pushedAt v.cpu.ss v.cpu.sp, InRam v.params a) : (v.push w).Top x ↔ x = w := by
  have hsp : v.cpu.sp - 2 + 1 = v.cpu.sp - 1 := by bv_omega
  unfold View.Top
  rw [push_cpu]
  exact holds16_store16_iff (v := v.setCpu _) hm (hram _ (by simp [pushedAt]))
    (hsp ▸ hram _ (by simp [pushedAt]))

/-- A push does not reach the other offsets of the stack segment. -/
theorem phys_notMem_pushedAt {ss sp off : Word} (h2 : off ≠ sp - 2) (h1 : off ≠ sp - 1) :
    phys ss off ∉ pushedAt ss sp := by
  simp only [pushedAt, List.mem_cons, List.not_mem_nil, or_false, not_or]
  exact ⟨fun h => h2 (phys_inj h), fun h => h1 (phys_inj h)⟩

/-- A push leaves the words that are on the stack as they are, two bytes deeper. -/
theorem top_push_addSp_iff {v : View} {w x n : Word} (hn : n.toNat < 0xFFFD) :
    ((v.push w).addSp (n + 2)).Top x ↔ (v.addSp n).Top x := by
  have hsp : v.cpu.sp - 2 + (n + 2) = v.cpu.sp + n := by bv_omega
  have hlow := push_kept (w := w) (phys_notMem_pushedAt (ss := v.cpu.ss) (sp := v.cpu.sp) (off := v.cpu.sp + n)
    (by bv_omega) (by bv_omega))
  have hhigh := push_kept (w := w) (phys_notMem_pushedAt (ss := v.cpu.ss) (sp := v.cpu.sp) (off := v.cpu.sp + n + 1)
    (by bv_omega) (by bv_omega))
  simp only [View.Top, View.Holds16, View.Holds8, addSpView_cpu, addSpView_mem, addSpView_params, push_cpu, push_params,
    hsp, hlow, hhigh]

/-- The word under the one just pushed is the old top of the stack. -/
theorem top_push_addSp_two_iff {v : View} {w x : Word} : ((v.push w).addSp 2).Top x ↔ v.Top x := by
  have h := top_push_addSp_iff (v := v) (w := w) (x := x) (n := 0) (by decide)
  rwa [addSp_zero] at h

/-- The frame that ends with two words just pushed to RAM is these and the old top of the stack. -/
theorem frame_push_push_iff {v : View} {w w' off sel f : Word} (hm : memWf v.mem = true)
    (hram : ∀ a ∈ pushedAt v.cpu.ss v.cpu.sp, InRam v.params a)
    (hram' : ∀ a ∈ pushedAt v.cpu.ss (v.cpu.sp - 2), InRam v.params a) :
    ((v.push w).push w').Frame off sel f ↔ off = w' ∧ sel = w ∧ v.Top f := by
  have hoff : ((v.push w).push w').Top off ↔ off = w' := top_push_iff (memWf_push hm w) (by
    rw [push_cpu, push_params]
    exact hram')
  have hsel : (((v.push w).push w').addSp 2).Top sel ↔ sel = w := top_push_addSp_two_iff.trans (top_push_iff hm hram)
  have hf : (((v.push w).push w').addSp 4).Top f ↔ v.Top f :=
    (top_push_addSp_iff (n := 2) (by decide)).trans top_push_addSp_two_iff
  exact and_congr hoff (and_congr hsel hf)

/-- The view once an interrupt entry has pushed FLAGS and cleared TF and IF (R820). -/
def View.flagsSaved (v : View) : View :=
  ({ v with eu := { v.eu with selfEntered := true } }.push (flagsWord v.cpu.flags)).setFlags
    fun f => { f with tf := false, intf := false }

theorem enterFrame_eq (v : View) (ret : Word) : v.enterFrame ret = (v.flagsSaved.push v.cpu.cs).push ret := rfl

theorem flagsSaved_stack (v : View) : v.flagsSaved.cpu.ss = v.cpu.ss ∧ v.flagsSaved.cpu.sp = v.cpu.sp - 2 ∧
    v.flagsSaved.params = v.params := by
  simp [View.flagsSaved]

theorem memWf_flagsSaved {v : View} (hm : memWf v.mem = true) : memWf v.flagsSaved.mem = true :=
  memWf_push (v := { v with eu := { v.eu with selfEntered := true } }) hm _

theorem top_flagsSaved_iff {v : View} {f : Word} (hm : memWf v.mem = true)
    (hram : ∀ a ∈ pushedAt v.cpu.ss v.cpu.sp, InRam v.params a) : v.flagsSaved.Top f ↔ f = flagsWord v.cpu.flags :=
  top_push_iff (v := { v with eu := { v.eu with selfEntered := true } }) hm hram

/-- The frame of an interrupt entry, in RAM, is the return offset, CS and FLAGS (R820). -/
theorem frame_enterFrame_iff {v : View} {ret off sel f : Word} (hm : memWf v.mem = true)
    (hram : ∀ a ∈ frameAt v.cpu, InRam v.params a) :
    (v.enterFrame ret).Frame off sel f ↔ off = ret ∧ sel = v.cpu.cs ∧ f = flagsWord v.cpu.flags := by
  have hsp : v.cpu.sp - 2 - 2 = v.cpu.sp - 4 := by bv_omega
  obtain ⟨hss, hsp2, hparams⟩ := flagsSaved_stack v
  simp only [frameAt, List.forall_mem_append] at hram
  obtain ⟨⟨hflags, hcs⟩, hret⟩ := hram
  rw [enterFrame_eq, frame_push_push_iff (memWf_flagsSaved hm), top_flagsSaved_iff hm hflags]
  · rwa [hss, hsp2, hparams]
  · rwa [hss, hsp2, hparams, hsp]

/-- What an IRET pops depends on SS, SP and the bytes of memory alone. -/
theorem frame_congr {v w : View} {off sel f : Word} (hss : v.cpu.ss = w.cpu.ss) (hsp : v.cpu.sp = w.cpu.sp)
    (hmem : v.mem = w.mem) (hparams : v.params = w.params) : v.Frame off sel f ↔ w.Frame off sel f := by
  simp [View.Frame, View.Top, View.Holds16, View.Holds8, hss, hsp, hmem, hparams]

/-- The far jump of the entry leaves the frame as it is. -/
theorem frame_done_jumpFar {v : View} {seg ip off sel f : Word} :
    (v.jumpFar seg ip).done.Frame off sel f ↔ v.Frame off sel f := Iff.rfl

/-- Settles O45: the frame that IRET pops is the one that the entry pushed. -/
theorem interruptRoundTrip : Obligations.InterruptRoundTrip := by
  intro s t u n hs hm hram ht hu hss hsp hmem hparams
  obtain ⟨sel', off', -, t', ht', -, -, hview, -⟩ := enters_of_enterAtIp (i := .int n) rfl hs
  obtain rfl : t = t' := Host.Outcome.next.inj (ht.symm.trans ht')
  obtain ⟨off, sel, f, hoff, hsel, hf, v, hv, -, -, hreturned, -⟩ := interruptReturn_iret u hu
  have hframe : (view t).Frame off sel f := (frame_congr (v := view u) (w := view t) hss hsp hmem hparams).mp ⟨hoff, hsel, hf⟩
  rw [hview, frame_done_jumpFar, frame_enterFrame_iff (v := view s) hm hram] at hframe
  obtain ⟨rfl, rfl, rfl⟩ := hframe
  have hsaved : t.cpu.sp = s.cpu.sp - 2 - 2 - 2 := by
    rw [← view_cpu t, hview, done_cpu, jumpFarView_cpu, enterFrame_cpu, view_cpu]
  have hback : u.cpu.sp + 6 = s.cpu.sp := by
    rw [hsp, hsaved]
    bv_omega
  refine ⟨v, hv, ?_⟩
  rw [← view_cpu v, hreturned]
  exact ⟨rfl, rfl, hback, setFlagsWord_flagsWord _⟩

end Sys2Proof.Machine
end

section
/-! PROOFS. The flag instructions, LAHF and SAHF (45_processor_control.md R730 to R736; 40_data_transfer.md R310, R311),
and HLT, WAIT, ESC, NOP and SALC (R737 to R739, R742, R743). -/

namespace Sys2Proof.Machine

open Sys2Proof.Claims

/-- An instruction whose change of the register file comes, in the state it starts from, to `g`. -/
theorem completes_of_cpu {i : Instr} {f g : Cpu → Cpu} {s : State} (hi : exec i s = complete (modifyCpu f) s)
    (hr : Ready s) (hg : f s.cpu = g s.cpu) : Completes i s ((view s).setCpu g).done [] := by
  have hview : (view s).setCpu f = (view s).setCpu g := congrArg (fun c => { view s with cpu := c }) hg
  exact hview ▸ completes_modifyCpu hi hr

/-! ### The flag instructions -/

/-- A flag instruction changes the flags and does nothing else (R730 to R735). -/
theorem exec_flagChange {i : Instr} {f : Flags → Flags} (h : flagChange i = some f) (s : State) :
    exec i s = complete (modifyFlags f) s := by
  cases i with
  | clc | stc | cmc | cld | std | cli =>
    cases h
    rfl
  | _ => cases h

/-- STI sets IF and the interrupt shadow (R736). -/
theorem Runs.stiOp {s : State} (hr : Ready s) :
    Runs stiOp s fun _ t =>
      view t = ((view s).setFlags fun f => { f with intf := true }).setEu fun e => { e with shadow := true } :=
  Runs.modifyFlags_bind
    (Runs.setShadow (s := { s with cpu.flags := { s.cpu.flags with intf := true } }) hr)

/-- The low byte of the FLAGS image as a sum (R62): OF, DF, IF and TF stand in the high byte. -/
theorem loByte_flagsWord (f : Flags) :
    loByte (flagsWord f) = BitVec.ofNat 8 (128 * f.sf.toNat + 64 * f.zf.toNat + 16 * f.af.toNat +
      4 * f.pf.toNat + 2 + f.cf.toNat) := by
  apply BitVec.eq_of_toNat_eq
  rw [loByte_toNat, flagsWord_eq_weights, BitVec.toNat_ofNat, BitVec.toNat_ofNat]
  omega

/-- Settles O46: all but STI change the register file alone. -/
theorem flagInstructions : Obligations.FlagInstructions := by
  refine fun s hr => ⟨fun i f h => ?flag, ?sti, ?lahf, ?sahf⟩
  case flag => exact completes_modifyCpu (exec_flagChange h s) hr
  case sti => exact completes_of_view (i := .sti) rfl hr (fun _ hr' hv => hv ▸ Runs.stiOp hr') fun _ _ => rfl
  case lahf => exact completes_of_cpu (i := .lahf) rfl hr (congrArg (setReg8 .ah · s.cpu) (loByte_flagsWord _))
  case sahf => exact completes_of_cpu (i := .sahf) rfl hr rfl

/-! ### Processor control -/

/-- HLT's bus transaction moves no data, so all it leaves is the halt (R737, R152). -/
theorem Runs.hltOp {s : State} (hr : Ready s) :
    Runs hltOp s fun _ t => view t = (view s).setEu fun e => { e with halted := true } := by
  refine (Runs.busAccess hr).bind fun _ t ht ⟨s1, hs1, _, hvt⟩ => Runs.modifyEu ht rfl ?_
  have hview : view t = view s := hvt.trans hs1
  exact congrArg (View.setEu fun e => { e with halted := true }) hview

/-- A WAIT that finds TEST asserted is an instruction that does nothing (R738). -/
theorem exec_wait_of_test {s : State} (h : s.env.test = true) : exec .wait s = complete (pure ()) s := by
  have hend : complete (pure ()) s = runEU endInstr s := by
    unfold complete
    cases s.eu.lock <;> rfl
  exact (if_pos h).trans hend.symm

/-- A WAIT that finds TEST not asserted waits, and its unit is over (R738, log entry 35). -/
theorem exec_wait_of_not_test {s : State} (h : s.env.test = false) :
    exec .wait s = goOn (fun e => { e with waiting := true }) s :=
  if_neg (Bool.eq_false_iff.mp h)

/-- ESC drops the word that it reads (R739). -/
theorem Runs.escOp {op reg : Bits3} {e : Rm Reg16} {s : State} (hr : Ready s) :
    Runs (escOp op reg e) s fun _ t => view t = view s := by
  cases e with
  | reg r => exact Runs.pure hr rfl
  | mem m => exact Runs.readS_bind ((Runs.readPlace16 hr).bind fun _ _ ht hv => Runs.pure ht hv.2)

/-- Settles O47 (that a waiting WAIT's unit is over is log entry 35). -/
theorem processorControl : Obligations.ProcessorControl := by
  refine fun s hr => ⟨?hlt, fun h => ?wait, exec_wait_of_not_test, fun op reg e => ?esc, ?nop, fun h => ?salc⟩
  case hlt => exact completes_of_view (i := .hlt) rfl hr (fun _ hr' hv => hv ▸ Runs.hltOp hr') fun _ _ => rfl
  case wait => exact (completes_pure (exec_wait_of_test h) hr).1
  case esc => exact completes_of_view (i := .esc op reg e) rfl hr (fun _ hr' hv => hv ▸ Runs.escOp hr') fun _ _ => rfl
  case nop => exact (completes_pure rfl hr).1
  case salc => exact completes_of_cpu (i := .salc) (ifAdmitted_eq h) hr rfl

end Sys2Proof.Machine
end

section
/-! PROOFS. Interrupts at an instruction boundary (60_exceptions.md R808 to R822): what the entry algorithm does there,
the acknowledge sequence, and what a CPU that takes no step still lets through (R803, R980). -/

namespace Sys2Proof.Machine

open Sys2Proof.Claims

/-! ### Entries at a boundary -/

theorem Runs.endInstr {s : State} (hr : Ready s) :
    Runs endInstr s fun _ t => view t = (view s).done ∧ t.biu = { s.biu with lockOut := false } :=
  ⟨(), _, rfl, hr, rfl, rfl⟩

theorem runEU_of_runs {m : EU Unit} {s : State} {P : State → Prop} (h : Runs m s fun _ => P) :
    ∃ t, runEU m s = .next t ∧ Ready t ∧ P t := by
  obtain ⟨_, t, he, hr, hp⟩ := h
  exact ⟨t, by rw [runEU, he], hr, hp⟩

/-- The view once the halt, if any, has ended (R810). -/
def View.resumed (v : View) : View := v.setEu fun e => { e with halted := false }

/-- A bind after a change of the Execution Engine's own state. -/
theorem Runs.modifyEu_bind {β : Type} {f : Eu → Eu} {g : Unit → EU β} {s : State} {Q : β → State → Prop}
    (h : Runs (g ()) { s with eu := f s.eu } Q) : Runs (Machine.modifyEu f >>= g) s Q := h

/-- Vector `n` has been entered from the view `v`, and `t` is at the first boundary of its handler (R820). -/
def AtHandler (v : View) (n : Byte) (t : State) : Prop :=
  ∃ sel off, (v.enterFrame v.cpu.ip).Vector n sel off ∧ view t = ((v.enterFrame v.cpu.ip).jumpFar sel off).done ∧
    Flushed t.biu ∧ t.biu.lockOut = false

/-- The entry itself, with the instruction boundary after it. -/
theorem Runs.entry {n : Byte} {s : State} {v : View} (hr : Ready s) (hv : view s = v) :
    Runs (do Machine.enterAtIp n; Machine.endInstr) s fun _ => AtHandler v n := by
  subst hv
  exact (Runs.enterAtIp hr).bind fun _ _ ht ⟨sel, off, hvec, hv, hflushed⟩ => (Runs.endInstr ht).imp
    fun _ _ ⟨hend, hbiu⟩ => ⟨sel, off, hvec, hend.trans (congrArg View.done hv), by rw [hbiu]; exact hflushed,
      by rw [hbiu]⟩

/-- An entry at a boundary ends the halt, takes the vector and enters it: `v` is what taking it leaves, and `R` says
which vectors it can be (R810, R820). -/
theorem boundaryEntry_enters {w : Work} {vector : EU Byte} {s : State} {v : View} {R : Byte → Prop} (hr : Ready s)
    (hvector : ∀ s', Ready s' → view s' = (view s).resumed → Runs vector s' fun n t => R n ∧ view t = v) :
    ∃ t, boundaryEntry w vector s = .next t ∧ Ready t ∧ ∃ n, R n ∧ AtHandler v n t := by
  let s' : State := { beginWork w s with eu := { s.eu with halted := false } }
  have hready : Ready s' := ready_modifyEu (f := fun e => { e with halted := false }) hr rfl
  have hruns : Runs (do let n ← vector; Machine.enterAtIp n; Machine.endInstr) s'
      fun _ t => ∃ n, R n ∧ AtHandler v n t :=
    (hvector s' hready rfl).bind fun n _ ht ⟨hn, hv⟩ => (Runs.entry ht hv).imp fun _ _ h => ⟨n, hn, h⟩
  exact runEU_of_runs (Runs.modifyEu_bind hruns)

/-- A step that is such an entry enters the vector, where taking it leaves the registers and the memory. -/
theorem stepEnters_of_boundaryEntry {w : Work} {vector : EU Byte} {s s0 : State} {v : View} {R : Byte → Prop}
    (hstep : step s = boundaryEntry w vector s0) (hr : Ready s0) (hs0 : view s0 = view s) (hcpu : v.cpu = s.cpu)
    (hmem : v.mem = s.mem)
    (hvector : ∀ s', Ready s' → view s' = (view s).resumed → Runs vector s' fun n t => R n ∧ view t = v) :
    ∃ n, R n ∧ StepEnters s v n := by
  obtain ⟨t, ht, hready, n, hn, sel, off, hvec, hview, hflushed, hlock⟩ :=
    boundaryEntry_enters (w := w) hr fun s' hr' hv => hvector s' hr' (hs0 ▸ hv)
  have hkept : BytesKept s t (frameAt s.cpu) := fun a ha => by
    rw [← hcpu] at ha
    rw [← view_mem t, hview, ← hmem, done_mem, jumpFarView_mem]
    exact enterFrame_kept ha
  rw [hcpu] at hvec hview
  exact ⟨n, hn, sel, off, t, hvec, hstep.trans ht, hready, hview, hkept, hflushed, hlock⟩

/-- An entry whose vector the CPU knows. -/
theorem stepEnters_of_fixed_vector {w : Work} {n : Byte} {s s0 : State} (hstep : step s = boundaryEntry w (pure n) s0)
    (hr : Ready s0) (hs0 : view s0 = view s) : StepEnters s (view s).resumed n := by
  obtain ⟨_, rfl, h⟩ := stepEnters_of_boundaryEntry (R := (· = n)) (v := (view s).resumed) hstep hr hs0 rfl rfl
    fun _ hr' hv => Runs.pure hr' ⟨rfl, hv⟩
  exact h

theorem step_of_answer {s : State} {r : Result} (h : nextUnit s = .answer r) : step s = r := by
  rw [step, h]

section Boundary

variable {s : State} (hb : AtBoundary s) (hshadow : s.eu.shadow = false)
include hb hshadow

/-- A latched NMI is taken first, and its latch is cleared (R810, R812). -/
theorem step_of_nmi (h : s.nmiLatch = true) : step s = boundaryEntry .nmi (pure 2) { s with nmiLatch := false } := by
  apply step_of_answer
  simp [nextUnit_of_atBoundary hb, boundary, hshadow, h]

/-- Without an NMI, an INTR with IF = 1 is acknowledged (R810, R811). -/
theorem step_of_intr (hnmi : s.nmiLatch = false) (h : interruptPending s = true) :
    step s = boundaryEntry .intr intaSequence s := by
  apply step_of_answer
  simp [nextUnit_of_atBoundary hb, boundary, hshadow, hnmi, h]

/-- Without an interrupt to take, an armed trap is, unless the instruction has entered an interrupt itself (R808,
R810). -/
theorem step_of_trap (hint : interruptPending s = false) (harmed : s.eu.trapArmed = true)
    (hself : s.eu.selfEntered = false) : step s = boundaryEntry .trap (pure 1) s := by
  have hnmi : s.nmiLatch = false := (Bool.or_eq_false_iff.mp hint).1
  apply step_of_answer
  simp [nextUnit_of_atBoundary hb, boundary, hshadow, hnmi, hint, harmed, hself]

end Boundary

/-- Settles O50: the step is the entry of a vector that the CPU knows. -/
theorem nmiAndTrapEntry : Obligations.NmiAndTrapEntry := by
  refine fun s hr hb hshadow => ⟨fun hnmi => ?nmi, fun hint harmed hself => ?trap⟩
  case nmi => exact stepEnters_of_fixed_vector (step_of_nmi hb hshadow hnmi) hr rfl
  case trap => exact stepEnters_of_fixed_vector (step_of_trap hb hshadow hint harmed hself) hr rfl

/-! ### The acknowledge sequence -/

/-- A pulse acts on the controllers alone, and gives the byte that they drive, if any (R860). -/
theorem Runs.ackPulse {second : Bool} {s : State} {v : View} (hr : Ready s) (hv : view s = v) :
    Runs (Machine.busAccess ⟨.interruptAcknowledge, .inta second, 0⟩) s fun b t =>
      (∀ d, (picsPulse second v.pics).2 = some d → b = d) ∧
        view t = { v with pics := (picsPulse second v.pics).1 } := by
  subst hv
  refine (Runs.busAccess hr).imp fun b t ⟨s1, hs1, hb, hvt⟩ => ?_
  have hphase : dataPhase (txnOf ⟨.interruptAcknowledge, .inta second, 0⟩) s1 = sampleInta second s1 := rfl
  rw [hphase] at hb hvt
  rw [hb, hvt, ← hs1, view_pics, sampleInta]
  cases hd : (picsPulse second s1.pics).2 with
  | none => exact ⟨nofun, rfl⟩
  | some d => exact ⟨fun _ h => Option.some.inj h, rfl⟩

theorem Runs.setLockOut_bind {β : Type} {l : Bool} {g : Unit → EU β} {s : State} {Q : β → State → Prop}
    (h : Runs (g ()) { s with biu := { s.biu with lockOut := l } } Q) : Runs (Machine.setLockOut l >>= g) s Q := h

/-- The controllers take two pulses, and the byte of the second is the vector (R822). -/
theorem Runs.intaSequence {s : State} {v : View} (hr : Ready s) (hv : view s = v) :
    Runs intaSequence s fun n t =>
      (∀ b, (picsPulse true (picsPulse false v.pics).1).2 = some b → n = b) ∧
        view t = { v with pics := (picsPulse true (picsPulse false v.pics).1).1 } :=
  Runs.setLockOut_bind ((Runs.ackPulse (s := { s with biu := { s.biu with lockOut := true } }) hr hv).bind
    fun _ _ ht ⟨_, hvt⟩ => (Runs.ackPulse ht hvt).bind fun _ _ hu hn => Runs.setLockOut_bind (Runs.pure hu hn))

/-- Settles O51: the vector of the entry is what the acknowledge sequence gives. -/
theorem maskableEntry : Obligations.MaskableEntry := by
  intro s hr hb hshadow hnmi hif hintr
  have hpending : interruptPending s = true := by simp [interruptPending, hif, hintr]
  exact stepEnters_of_boundaryEntry (step_of_intr hb hshadow hnmi hpending) hr rfl rfl rfl fun _ => Runs.intaSequence

/-! ### The shadow -/

/-- Settles O52. -/
theorem shadow : Obligations.Shadow := fun _ hb hshadow hh =>
  (nextUnit_of_atBoundary hb).trans (boundary_of_nothingPending (.inl hshadow) hh)

/-! ### A tick of a frozen CPU -/

/-- IRQ events act on the controllers alone, whatever the rest of the state is (R855). -/
theorem irqEvents_eq_foldl (l : List IrqEvent) (s : State) :
    irqEvents l s = { s with pics := l.foldl (fun ps e => picsIrq e ps) s.pics } := by
  induction l generalizing s with
  | nil => rfl
  | cons e rest ih => exact ih _

/-- What a tick without RESET delivers before the bus step: the IRQ events, a Stop and the TEST level (R138). -/
def delivered (i : TickIn) (s : State) : State :=
  { s with
    pics := (irqEvents i.irq s).pics
    stopped := s.stopped || i.stop
    env := { s.env with test := i.test } }

theorem delivered_frozen {i : TickIn} {s : State} (h : frozen s = true) : frozen (delivered i s) = true := by
  rcases Bool.or_eq_true_iff.mp h with hstopped | hfaulted
  · simp [frozen, delivered, hstopped]
  · simp [frozen, delivered, hfaulted]

/-- The order in which the model delivers the inputs makes no difference (log entry 15). -/
theorem delivered_eq (i : TickIn) (s : State) :
    (let t := irqEvents i.irq { s with env := { s.env with test := i.test } }
     if i.stop then { t with stopped := true } else t) = delivered i s := by
  simp only [delivered, irqEvents_eq_foldl]
  cases i.stop <;> simp

/-- A tick of a frozen CPU makes no bus step (R138). -/
theorem tick_of_frozen {i : TickIn} {s : State} (hf : frozen s = true) (hreset : i.reset = false) :
    tick i s = holdAccesses i.dma (delivered i s) := by
  have htick : tick i s = holdAccesses i.dma (if frozen (delivered i s) then delivered i s
      else busStep i.hold (nmiEdge i.nmi (delivered i s))) := by
    rw [← delivered_eq, tick, if_neg (by simp [hreset])]
  rw [htick, if_pos (delivered_frozen hf)]

/-- Where the bus is held, the HOLD requester's accesses act all the same (log entry 14). -/
theorem tick_of_frozen_held {i : TickIn} {s : State} (hf : frozen s = true) (hreset : i.reset = false)
    (hbus : s.biu.bus = .held) : tick i s = dmaAccesses i.dma (delivered i s) := by
  have hbus' : (delivered i s).biu.bus = .held := hbus
  rw [tick_of_frozen hf hreset, holdAccesses, hbus']

theorem holdAccesses_of_not_held {l : List DmaAccess} {s : State} (h : s.biu.bus ≠ .held) : holdAccesses l s = s := by
  unfold holdAccesses
  split
  · contradiction
  · rfl

/-- The HOLD requester's write to RAM stores the byte (R161, R123). -/
theorem dmaAccess_writeMemory_ram {a : Nat} {b : Byte} {s : State} (h : InRam s.params a) :
    dmaAccess (.writeMemory a b) s = { s with mem := memWrite s.mem a b } := by
  unfold InRam at h
  simp [dmaAccess, depositMemory, h]

/-- Settles O53: the tick is what it delivers, then the accesses of a HOLD requester that has the bus. -/
theorem frozenTick : Obligations.FrozenTick := by
  intro i s hf hreset
  refine ⟨fun hbus => ?free, fun hbus => ⟨tick_of_frozen_held hf hreset hbus, fun a b hdma hram hm c => ?byte⟩⟩
  case free => exact (tick_of_frozen hf hreset).trans (holdAccesses_of_not_held hbus)
  case byte =>
    have hmem : (tick i s).mem = memWrite s.mem a b := by
      rw [tick_of_frozen_held hf hreset hbus, hdma]
      exact congrArg State.mem (dmaAccess_writeMemory_ram (s := delivered i s) hram)
    rw [hmem]
    exact (storageLaws s.mem a c b hm).2

end Sys2Proof.Machine
end

section
/-! PROOFS. The interrupt controller (60_exceptions.md R850 to R867): requests and their priority, the two pulses of an
acknowledge, the initialization sequence and the end-of-interrupt commands. -/

namespace Sys2Proof.Machine

/-! ### Levels as bits -/

theorem oneHot_getLsbD (n k : Bits3) : (oneHot n).getLsbD k.toNat = decide (k = n) := by
  revert n k
  decide

/-- A byte without any of the eight levels is 0. -/
theorem byte_eq_zero_of_levels {b : Byte} (h : ∀ k : Bits3, b.getLsbD k.toNat = false) : b = 0 := by
  refine BitVec.eq_of_getLsbD_eq fun i hi => ?_
  have hk := h (BitVec.ofNat 3 i)
  rw [BitVec.toNat_ofNat, Nat.mod_eq_of_lt hi] at hk
  exact hk.trans BitVec.getLsbD_zero.symm

/-! ### Requests and priority -/

theorem picIrq_of_masked {p : Pic} {n : Bits3} (h : p.imr.getLsbD n.toNat = true) : picIrq p n = p := if_pos h

theorem picIrq_of_unmasked {p : Pic} {n : Bits3} (h : p.imr.getLsbD n.toNat = false) :
    picIrq p n = { p with irr := p.irr ||| oneHot n } := if_neg (by simp [h])

/-- The rank of R857, without wrapping. -/
theorem picRank_eq (p : Pic) (j : Bits3) : picRank p j = (j.toNat + 7 - p.lowest.toNat) % 8 := by
  unfold picRank
  bv_omega

/-- Every level has its place in the priority order. -/
theorem mem_picOrder (p : Pic) (j : Bits3) : j ∈ picOrder p := by
  unfold picOrder
  generalize p.lowest = lowest
  revert lowest j
  decide

theorem picOrder_pairwise (p : Pic) : (picOrder p).Pairwise fun j k => picRank p j ≤ picRank p k := by
  unfold picOrder picRank
  generalize p.lowest = lowest
  revert lowest
  decide

/-- The first level in priority order with a property is the one of least rank (R857). -/
theorem find?_picOrder_some {p : Pic} {q : Bits3 → Bool} {j : Bits3} (h : (picOrder p).find? q = some j) :
    q j = true ∧ ∀ k, q k = true → picRank p j ≤ picRank p k := by
  obtain ⟨hj, before, after, horder, hbefore⟩ := List.find?_eq_some_iff_append.mp h
  refine ⟨hj, fun k hk => ?_⟩
  have hmem := mem_picOrder p k
  have hsorted := picOrder_pairwise p
  rw [horder, List.mem_append, List.mem_cons] at hmem
  rw [horder, List.pairwise_append, List.pairwise_cons] at hsorted
  rcases hmem with hk' | rfl | hk'
  · exact absurd (hbefore k hk') (by simp [hk])
  · exact le_rfl
  · exact hsorted.2.1.1 k hk'

theorem find?_picOrder_none {p : Pic} {q : Bits3 → Bool} (h : (picOrder p).find? q = none) (k : Bits3) :
    q k = false := by
  simpa using List.find?_eq_none.mp h k (mem_picOrder p k)

/-- Settles O54: the request resolved is the first eligible one in priority order. -/
theorem requestsAndPriority : Obligations.RequestsAndPriority := by
  refine ⟨fun p n => ⟨picIrq_of_masked, fun h => ⟨picIrq_of_unmasked h, fun k => ?latched⟩⟩,
    fun p req => ⟨fun j h => ?winner, find?_picOrder_none⟩⟩
  case latched =>
    rw [picIrq_of_unmasked h, BitVec.getLsbD_or, oneHot_getLsbD, Bool.or_comm]
  case winner =>
    simp only [← picRank_eq]
    exact find?_picOrder_some h

/-! ### The pulses of an acknowledge -/

theorem picAccept_irr (p : Pic) (j : Bits3) : (picAccept p j).irr.getLsbD j.toNat = false := by
  have hbit : (~~~ oneHot j).getLsbD j.toNat = false := by simp [oneHot_getLsbD]
  simp only [picAccept, BitVec.getLsbD_and, hbit, Bool.and_false]

/-- The controller after a pulse 1 that has resolved its own level `j` (R860). -/
def picAcknowledged (p : Pic) (j : Bits3) : Pic := { picAccept p j with sel := .own j, pulse := 2 }

theorem picAutoEoi_isr (p : Pic) (j : Bits3) : (picAutoEoi p j).isr = if p.aeoi then p.isr.leave j else p.isr := by
  unfold picAutoEoi
  split <;> rfl

theorem picAutoEoi_irr (p : Pic) (j : Bits3) : (picAutoEoi p j).irr = p.irr := by
  unfold picAutoEoi
  split <;> rfl

/-- A single controller has no cascade line (R862). -/
theorem cascadeSlave_of_single {ps : Pics} (h : ps.master.sngl = true) (i : Bits3) : cascadeSlave ps i = none := by
  simp [cascadeSlave, h]

/-- Pulse 1 at a single controller that resolves level `j` accepts it (R860). -/
theorem picsPulse1_of_single {ps : Pics} {j : Bits3} (hsingle : ps.master.sngl = true)
    (hj : picWinner ps.master (masterRequests ps) = some j) :
    (picsPulse1 ps).1 = { ps with master := picAcknowledged ps.master j } := by
  simp [picsPulse1, hj, cascadeSlave_of_single hsingle, picAcknowledged]

/-- Pulse 2 at a master that has accepted its own level `j` drives its vector and performs AEOI (R860, R863). -/
theorem picsPulse2_of_own {ps : Pics} {j : Bits3} (h : ps.master.sel = .own j) :
    picsPulse2 ps =
      ({ ps with master := picAutoEoi { ps.master with pulse := picAfterPulse2 ps.master } j },
        some (picVector ps.master j)) := by
  simp [picsPulse2, picPulse2, h]

/-- The vector in 8086 mode (R860). -/
theorem picVector_of_upm {p : Pic} (h : p.upm = true) (j : Bits3) :
    picVector p j = (p.icw2 &&& 0xF8#8) ||| j.setWidth 8 := if_pos h

/-- Settles O55: pulse 1 accepts the level, and pulse 2 drives its vector and performs AEOI. -/
theorem acknowledge : Obligations.Acknowledge := by
  intro p j hsingle hupm slaves hj
  have hfirst : (picsPulse false ⟨p, slaves⟩).1 = ⟨picAcknowledged p j, slaves⟩ := picsPulse1_of_single hsingle hj
  have hsecond : picsPulse true ⟨picAcknowledged p j, slaves⟩ = _ :=
    picsPulse2_of_own (ps := ⟨picAcknowledged p j, slaves⟩) (j := j) rfl
  have hvector := picVector_of_upm (p := picAcknowledged p j) hupm j
  dsimp only
  rw [hfirst, hsecond, hvector, picAutoEoi_isr, picAutoEoi_irr]
  exact ⟨picAccept_irr p j, rfl, rfl, rfl, fun h => if_neg (ne_true_of_eq_false h), fun h => if_pos h, rfl⟩

/-! ### The initialization sequence -/

/-- A controller that is not operational asserts no INTR (R856). -/
theorem picIntr_of_not_operational {p : Pic} (h : p.init ≠ .operational) (req : Bits3 → Bool) :
    picIntr p req = false := by
  simp [picIntr, h]

theorem isr_none_image (i : InService) : i.none.image = 0 := by
  cases i <;> rfl

/-- The controller after ICW1 with IC4 = 1 (R858). -/
def afterIcw1 (b : Byte) (p : Pic) : Pic :=
  { p with
    ic4 := true, sngl := b.getLsbD 1, adi := b.getLsbD 2, ltim := b.getLsbD 3
    a7to5 := bits3 b 5, irr := 0, imr := 0, isr := p.isr.none, lowest := 7, rotateAeoi := false
    smm := false, readSel := .irr, pollPending := false, pulse := 1, init := .awaitingIcw2 }

theorem picWriteCommand_icw1 {b : Byte} (h4 : b.getLsbD 4 = true) (h0 : b.getLsbD 0 = true) (p : Pic) :
    picWriteCommand b p = afterIcw1 b p := by
  simp [picWriteCommand, picIcw1, afterIcw1, h4, h0]

/-- At a single controller no ICW3 follows ICW2 (R859). -/
theorem picWriteData_icw2_single {p : Pic} (hp : p.init = .awaitingIcw2) (hic4 : p.ic4 = true) (hs : p.sngl = true)
    (b : Byte) : picWriteData b p = { p with icw2 := b, init := .awaitingIcw4 } := by
  simp [picWriteData, hp, hic4, hs]

theorem picWriteData_icw2_cascaded {p : Pic} (hp : p.init = .awaitingIcw2) (hs : p.sngl = false) (b : Byte) :
    picWriteData b p = { p with icw2 := b, init := .awaitingIcw3 } := by
  simp [picWriteData, hp, hs]

theorem picWriteData_icw3 {p : Pic} (hp : p.init = .awaitingIcw3) (hic4 : p.ic4 = true) (b : Byte) :
    picWriteData b p = { p with icw3 := b, init := .awaitingIcw4 } := by
  simp [picWriteData, hp, hic4]

theorem picWriteData_icw4 {p : Pic} (hp : p.init = .awaitingIcw4) (b : Byte) :
    picWriteData b p =
      { p with
        upm := b.getLsbD 0, aeoi := b.getLsbD 1, ms := b.getLsbD 2, buf := b.getLsbD 3, sfnm := b.getLsbD 4
        init := .operational } := by
  simp [picWriteData, hp]

/-- The controller once all its initialization words but ICW4 have been written (R859). -/
def awaitingLast (b1 b2 b3 : Byte) (p : Pic) : Pic :=
  { afterIcw1 b1 p with icw2 := b2, icw3 := if b1.getLsbD 1 then p.icw3 else b3, init := .awaitingIcw4 }

/-- After ICW2 a controller that is not single takes ICW3, and then each awaits ICW4 (R859). -/
theorem awaitingLast_eq (b1 b2 b3 : Byte) (p : Pic) :
    (let q := picWriteData b2 (afterIcw1 b1 p)
     q.init ≠ .operational ∧ (if b1.getLsbD 1 then q else picWriteData b3 q) = awaitingLast b1 b2 b3 p) := by
  cases hs : b1.getLsbD 1 with
  | true =>
    rw [picWriteData_icw2_single (p := afterIcw1 b1 p) rfl rfl hs, awaitingLast, hs]
    exact ⟨nofun, rfl⟩
  | false =>
    rw [picWriteData_icw2_cascaded (p := afterIcw1 b1 p) rfl hs, awaitingLast, hs]
    exact ⟨nofun, picWriteData_icw3 (p := { afterIcw1 b1 p with icw2 := b2, init := .awaitingIcw3 }) rfl rfl b3⟩

/-! ### The end-of-interrupt commands -/

/-- At an operational controller a command with bits 4 and 3 clear is OCW2 (R851). -/
theorem picWriteCommand_ocw2 {p : Pic} {b : Byte} (hp : p.init = .operational) (h4 : b.getLsbD 4 = false)
    (h3 : b.getLsbD 3 = false) : picWriteCommand b p = picOcw2 b p := by
  rw [picWriteCommand, if_neg (ne_true_of_eq_false h4), if_pos hp, if_neg (ne_true_of_eq_false h3)]

/-- The non-specific EOI is the command 001 (R865). -/
theorem picWriteCommand_eoi {p : Pic} (hp : p.init = .operational) : picWriteCommand 0x20 p = picEoi p :=
  picWriteCommand_ocw2 hp rfl rfl

theorem picHighestInService_bitmask {p : Pic} {levels : Byte} (h : p.isr = .bitmask levels) :
    picHighestInService p = (picOrder p).find? fun k => levels.getLsbD k.toNat := by
  rw [picHighestInService, h]

/-- With nothing in service a non-specific EOI does nothing (R865). -/
theorem picEoi_of_none {p : Pic} (h : picHighestInService p = none) : picEoi p = p := by
  rw [picEoi, h]

/-- A non-specific EOI ends the service of the level of highest priority (R865). -/
theorem picEoi_of_some {p : Pic} {k : Bits3} (h : picHighestInService p = some k) :
    picEoi p = { p with isr := p.isr.leave k } := by
  rw [picEoi, h]

/-- Among levels in service one has the highest priority (R857, R865). -/
theorem exists_highestInService {p : Pic} {levels : Byte} (h : p.isr = .bitmask levels) (hlevels : levels ≠ 0) :
    ∃ k, picHighestInService p = some k ∧ levels.getLsbD k.toNat = true ∧
      ∀ j : Bits3, levels.getLsbD j.toNat = true → picRank p k ≤ picRank p j := by
  rw [picHighestInService_bitmask h]
  cases hk : (picOrder p).find? fun k => levels.getLsbD k.toNat with
  | none => exact absurd (byte_eq_zero_of_levels (find?_picOrder_none hk)) hlevels
  | some k => exact ⟨k, rfl, find?_picOrder_some hk⟩

theorem highestInService_of_zero {p : Pic} (h : p.isr = .bitmask 0) : picHighestInService p = none := by
  rw [picHighestInService_bitmask h]
  simp

/-- With the single in-service model a non-specific EOI ends whatever is in service (R865). -/
theorem picEoi_of_single {p : Pic} {level : Option Bits3} (h : p.isr = .single level) :
    picEoi p = { p with isr := .single none } := by
  have hlevel : picHighestInService p = level := by rw [picHighestInService, h]
  cases level with
  | none => rw [picEoi_of_none hlevel, ← h]
  | some k => rw [picEoi_of_some hlevel, h, InService.leave]

/-- The specific EOI is the command 011 (R865). -/
theorem picWriteCommand_specificEoi {p : Pic} (hp : p.init = .operational) (k : Bits3) :
    picWriteCommand (0x60#8 ||| k.setWidth 8) p = { p with isr := p.isr.leave k } := by
  have hlevel : bits3 (0x60#8 ||| k.setWidth 8) 0 = k := by
    revert k
    decide
  rw [picWriteCommand_ocw2 hp (by simp) (by simp)]
  simp [picOcw2, hlevel]

/-- The rotating specific EOI is the command 111 (R865, R867). -/
theorem picWriteCommand_rotatingEoi {p : Pic} (hp : p.init = .operational) (k : Bits3) :
    picWriteCommand (0xE0#8 ||| k.setWidth 8) p = { p with isr := p.isr.leave k, lowest := k } := by
  have hlevel : bits3 (0xE0#8 ||| k.setWidth 8) 0 = k := by
    revert k
    decide
  rw [picWriteCommand_ocw2 hp (by simp) (by simp)]
  simp [picOcw2, hlevel]

/-- Settles O56: each initialization word moves the controller one state on, and each command is the EOI it names. -/
theorem controllerCommands : Obligations.ControllerCommands := by
  refine ⟨fun p b1 b2 b3 b4 h4 h0 => ?sequence, fun p levels hp hisr => ⟨fun hlevels => ?idle, fun hlevels => ?eoi⟩,
    fun p k hp => ⟨picWriteCommand_specificEoi hp k, picWriteCommand_rotatingEoi hp k⟩, fun p level hp hisr => ?single⟩
  case sequence =>
    obtain ⟨hq2, hq3⟩ := awaitingLast_eq b1 b2 b3 p
    have hq1 : (afterIcw1 b1 p).init ≠ .operational := show InitState.awaitingIcw2 ≠ .operational from nofun
    have hlast : (awaitingLast b1 b2 b3 p).init ≠ .operational := show InitState.awaitingIcw4 ≠ .operational from nofun
    dsimp only
    rw [picWriteCommand_icw1 h4 h0, hq3, picWriteData_icw4 (p := awaitingLast b1 b2 b3 p) rfl]
    exact ⟨rfl, rfl, rfl, rfl, rfl, rfl, rfl, rfl, isr_none_image p.isr, rfl,
      fun req => ⟨picIntr_of_not_operational hq1 req, picIntr_of_not_operational hq2 req,
        picIntr_of_not_operational hlast req⟩⟩
  case idle =>
    subst hlevels
    exact (picWriteCommand_eoi hp).trans (picEoi_of_none (highestInService_of_zero hisr))
  case eoi =>
    obtain ⟨k, hk, hlevel, hleast⟩ := exists_highestInService hisr hlevels
    simp only [← picRank_eq]
    refine ⟨k, hlevel, hleast, ?_⟩
    rw [picWriteCommand_eoi hp, picEoi_of_some hk, hisr, InService.leave]
  case single => exact (picWriteCommand_eoi hp).trans (picEoi_of_single hisr)

end Sys2Proof.Machine
end

section
/-! PROOFS. The ends of a run (70_reset_and_hazards.md R975): what a step answers from a state that satisfies the
invariant. -/

namespace Sys2Proof.Machine

/-- A step answers as the machine does between two units: a unit that runs answers a state that satisfies the
invariant, so only the answers between units can end the run. -/
theorem step_ok {s : State} (hs : Inv s) : NextOk s (.answer (step s)) := by
  have hok := nextUnit_ok hs
  unfold step
  cases hnext : nextUnit s with
  | run i u =>
    rw [hnext] at hok
    exact nextOk_of_nextInv (exec_nextInv i hok)
  | answer r =>
    rw [hnext] at hok
    exact hok

/-- Settles O4: a refusal is no answer of a step, and a fault is one of the three ends of a run (`step_ok`). -/
theorem runEnds : Obligations.RunEnds := by
  intro s hs
  have hok := step_ok hs
  constructor
  · intro r hstep
    rw [hstep] at hok
    exact hok
  · intro f hstep
    rw [hstep] at hok
    exact hok

end Sys2Proof.Machine
end
